-- ==== Sys2Proof/Word.lean ====
section
/-! DEFINITION. The words of the part and the plainest arithmetic over them (spec 00, 0.5). -/

namespace Sys2Proof

/-- A byte of the host link (R173). -/
abbrev Byte := BitVec 8

/-- An item code, 64 bits (00, 0.5). -/
abbrev ItemCode := BitVec 64

/-- The 8-bit loan word of a tag (00, 0.5). -/
abbrev LoanWord := BitVec 8

/-- A value of the 32-bit round count. Differences are taken modulo 2^32 (00, 0.5). -/
abbrev Round := BitVec 32

/-- A read strength v in half-dB steps, 0..127 (00, 0.5). -/
abbrev Strength := BitVec 7

/-- `now` less `then_`, modulo 2^32, as a number of rounds (00, 0.5). -/
def roundsSince (now then_ : Round) : Nat := (now - then_).toNat

/-- One more, staying at the greatest value: a count that saturates (00, 0.5). -/
def satSucc {w : Nat} (x : BitVec w) : BitVec w := if x = BitVec.allOnes w then x else x + 1

/-- `x` brought into `lo..hi`. -/
def clampNat (lo hi x : Nat) : Nat := min hi (max lo x)

/-- `x` brought into `lo..hi`. -/
def clampInt (lo hi x : Int) : Int := min hi (max lo x)

end Sys2Proof
end

