-- ==== Sys2Proof/Config.lean ====
section
/-! DEFINITION. The fixed figures of the part (spec 00, 0.9) and the one free value. -/

namespace Sys2Proof.Config

/-- Records of the track table (R20). -/
def trackCapacity : Nat := 48
/-- Entries of the sighting cache (R29). -/
def cacheCapacity : Nat := 32
/-- Notices of the outbox (R106). -/
def outboxCapacity : Nat := 8
/-- Entries of the excuse list (R76). -/
def excuseCapacity : Nat := 64
/-- Records of the report ring (R181). -/
def ringCapacity : Nat := 64
/-- Calls of one follow half-sweep (R11). -/
def followCalls : Nat := 16
/-- Bit times of a round (R86). -/
def roundLength : Nat := 20000
/-- First bit time of the quiet tail (R86, R89). -/
def quietTail : Nat := 17572
/-- The timer value at which a FOLLOWING pedestal takes a round start without a mark (R87). -/
def followingLimit : Nat := 22428
/-- Listening time before a silent row is joined, 3 round lengths (R91). -/
def listenLimit : Nat := 60000
/-- Dominant bit times of a stuck line (R99). -/
def stuckRun : Nat := 200
/-- Rounds of a minute (00, 0.5). -/
def minuteRounds : Nat := 3000
/-- Rounds from a failed drive check to the next retry (R6). -/
def retryRounds : Nat := 250
/-- Rounds after building at which a SIGHTING notice is stale (R108). -/
def staleRounds : Nat := 5
/-- A lane is recent while its last-broken round is this many rounds back or fewer (R61). -/
def recentRounds : Nat := 24
/-- Samples of one duration unit of 10 ms of the sounder (R158). -/
def samplesPerUnit : Nat := 160
/-- The greatest payload of a host frame (R173). -/
def maxPayload : Nat := 120

/-- DESIGN CHOICE (log entry 19, safe). The STATUS code of the line state SILENT: R201 gives none, because a frame wakes
a DORMANT pedestal before its command is taken (R177). A free value: nothing constrains it. -/
opaque silentLineStateCode : BitVec 8

end Sys2Proof.Config
end

