-- ==== Sys2Proof/Syntax.lean ====
section
/-! DEFINITION. The commands of the part: one constructor of `Instr` for each row of spec/opcode_table.json, with what the
event carries from outside (the table itself gives a row no field). -/

namespace Sys2Proof

/-- The two levels of the peer line (R84). -/
inductive Level where
  | recessive
  | dominant
  deriving DecidableEq, Repr

/-- The two coils of a pedestal (00, 0.4). -/
inductive Coil where
  | H
  | S
  deriving DecidableEq, Repr

/-- The lane on a pedestal's left, s-1, or on its right, s (00, 0.4). -/
inductive LaneSide where
  | left
  | right
  deriving DecidableEq, Repr

/-- What a beam reads (R165). -/
inductive Beam where
  | CLEAR
  | BROKEN
  deriving DecidableEq, Repr

/-- The sources of a POWER-ON (R187). -/
inductive PowerSource where
  | supplyRise
  | supplyDip
  | resetPin
  deriving DecidableEq, Repr

/-- The six strap pins as they stand: four station pins, END, reach, each tied high or low (R189). -/
structure StrapPins where
  station : BitVec 4
  endHigh : Bool
  reachHigh : Bool
  deriving DecidableEq, Repr

/-- Whether the drive current of each coil would lie within the acceptance band at a drive check made in this event (R5). -/
structure DriveSense where
  hInBand : Bool
  sInBand : Bool
  deriving DecidableEq, Repr

/-- What a coil receives in one reply window or after one SELECT (R9, R12). A reply is the tag's item code, loan word and
CRC-16 as received (R198); its strength is in half-dB steps above the receiver floor, before R13 limits it. -/
inductive Reception where
  | silence
  | reply (item : ItemCode) (loan : LoanWord) (crc : BitVec 16) (strength : Int)
  | disturbed
  deriving DecidableEq, Repr

/-- One byte of the host link, and whether its stop bit was dominant (R174). -/
structure LinkByte where
  value : Byte
  stopDominant : Bool
  deriving DecidableEq, Repr

/-- The parts of a round start: what each block does when the new round is handed to it (R87). -/
inductive RoundTask where
  | windowEnd
  | trackExpiry
  | cacheAgeing
  | minuteCount
  | quietCount
  | fieldClass
  | staleNotices
  | soundTimers
  | beamsBroken
  | dormantTimer
  | requestDecision
  | slotWord
  | windowStart
  deriving DecidableEq, Repr

/-- What a round start meets from outside its rules: the order in which the blocks take it, where the rules leave the order
open (log entry 9), and the coil currents at a drive check of a window that begins (R5). -/
structure RoundInput where
  order : List RoundTask
  sense : DriveSense
  deriving DecidableEq, Repr

/-- The commands. One constructor for each row of the table; the mnemonic stands in LAWS.json. -/
inductive Instr where
  /-- POWER_ON_HOLD (R187): a source of POWER-ON appears. -/
  | powerOnHold (source : PowerSource)
  /-- POWER_ON (R188): the release; `last` is the source that was present last. -/
  | powerOn (last : PowerSource) (pins : StrapPins)
  /-- MARK_END (R89): `began` is the round timer at the first dominant bit time, `length` the bit times from the mark's
  beginning to its end. -/
  | markEnd (began length : Nat) (input : RoundInput)
  /-- ROUND_TIMER_EXPIRY (R87). -/
  | roundTimerExpiry (input : RoundInput)
  /-- FOLLOWING_TIMEOUT (R87). -/
  | followingTimeout (input : RoundInput)
  /-- START_MARK_SEND (R88): `line` is the level read in the bit time at which the timer reaches 20,000. -/
  | startMarkSend (line : Level)
  /-- CALM_ENTRY (R132). -/
  | calmEntry
  /-- TRACK_EXPIRY (R36). -/
  | trackExpiry
  /-- CACHE_AGEING (R30). -/
  | cacheAgeing
  /-- STALE_NOTICE (R108). -/
  | staleNotice
  /-- MINUTE_BOUNDARY (R80). -/
  | minuteBoundary
  /-- SOUND_LIMIT_EXPIRY (R144) of one lane machine. -/
  | soundLimitExpiry (lane : LaneSide)
  /-- QUIET_MINUTE (R191). -/
  | quietMinute
  /-- LISTEN_TIMEOUT (R91). -/
  | listenTimeout
  /-- LINE_STUCK (R99): `timer` is the round timer when the dominant run reaches 200. -/
  | lineStuck (timer : Nat) (input : RoundInput)
  /-- LINE_STUCK_TIMING_FREE (R101): `timer` is the round timer when the dominant run reaches 200. -/
  | lineStuckTimingFree (timer : Nat) (input : RoundInput)
  /-- LONE_RECOVERY (R100). -/
  | loneRecovery
  /-- TIMING_FOLLOWING_RESTORED (R101). -/
  | timingFollowingRestored
  /-- SLOT_RECEIVED (R93): bit i of `bits` is what the line read in bit time i of the slot, 1 recessive. -/
  | slotReceived (station : Fin 16) (bits : BitVec 16)
  /-- OWN_SLOT_READBACK (R97): the own slot as read back, laid out as in `slotReceived`. -/
  | ownSlotReadback (bits : BitVec 16)
  /-- REQUEST_FIELD_END (R96): bit i of `levels` is what the line read in bit time i of the request field, 1 recessive. -/
  | requestFieldEnd (levels : BitVec 20)
  /-- NOTICE_SLOT_START (R111) of notice slot `slot`. -/
  | noticeSlotStart (slot : Fin 24)
  /-- NOTICE_SLOT_END (R116): what the line read in the bit times of the slot, in order, true recessive (R102, R195): all 720 at the
  end of the slot, fewer for a slot read so far or cut (R90, R113, R120). -/
  | noticeSlotEnd (slot : Fin 24) (levels : List Bool)
  /-- REPLY_WINDOW_END (R9). -/
  | replyWindowEnd (reception : Reception) (sense : DriveSense)
  /-- FOLLOW_CALL_END (R12). -/
  | followCallEnd (reception : Reception) (sense : DriveSense)
  /-- HALF_SWEEP_TIME_LIMIT (R2). -/
  | halfSweepTimeLimit (sense : DriveSense)
  /-- SOUNDER_ENTRY_END (R158). -/
  | sounderEntryEnd
  /-- SOUNDER_END_MARKER_RECHECK (R158). -/
  | sounderEndMarkerRecheck
  /-- FLASH_TOGGLE (R150) of one lane lamp. -/
  | flashToggle (lane : LaneSide)
  /-- BEAM_CHANGE (R166): the sample of both beams that confirms a change. -/
  | beamChange (hall street : Beam)
  /-- CLEAR_PRESS (R146): the pressed sample that accepts a press. -/
  | clearPress
  /-- HOST_FRAME_BAD (R174): bytes of the link, the last of which discards the frame. -/
  | hostFrameBad (bytes : List LinkByte)
  /-- HOST_BYTE_GAP_TIMEOUT (R174): bytes of the link, then more than 5 ms, then the late byte. -/
  | hostByteGapTimeout (before : List LinkByte) (late : LinkByte)
  /-- HOST_FRAME_BUSY (R175): a complete frame. -/
  | hostFrameBusy (code : Byte) (payload : List Byte)
  /-- UNKNOWN_COMMAND (R176): a complete frame. -/
  | unknownCommand (code : Byte) (payload : List Byte)
  /-- IDENTIFY (R177): the payload of the complete frame, here and in the rows that follow. -/
  | identify (payload : List Byte)
  /-- STATUS (R177). -/
  | status (payload : List Byte)
  /-- TRACKS (R39). -/
  | tracks (payload : List Byte)
  /-- COUNTS (R170). -/
  | counts (payload : List Byte)
  /-- TAKE_COUNTS (R170). -/
  | takeCounts (payload : List Byte)
  /-- REPORTS (R183). -/
  | reports (payload : List Byte)
  /-- STREAM (R184). -/
  | stream (payload : List Byte)
  /-- SET (R178). -/
  | setParam (payload : List Byte)
  /-- GET (R178). -/
  | getParam (payload : List Byte)
  /-- EXCUSE_ADD (R77). -/
  | excuseAdd (payload : List Byte)
  /-- EXCUSE_DROP (R79). -/
  | excuseDrop (payload : List Byte)
  /-- EXCUSE_LIST (R82). -/
  | excuseList (payload : List Byte)
  /-- HUSH (R147). -/
  | hush (payload : List Byte)
  /-- CADENCE (R156). -/
  | cadence (payload : List Byte)
  /-- REST (R179). -/
  | rest (payload : List Byte)
  /-- RESET_FULL (R180): `more` is what follows the scope byte 1 in the payload. -/
  | resetFull (more : List Byte)
  /-- RESET_ENGINE (R180): `more` is what follows the scope byte 2 in the payload. -/
  | resetEngine (more : List Byte)
  /-- RESET_COUNTS (R180): `more` is what follows the scope byte 3 in the payload. -/
  | resetCounts (more : List Byte)
  /-- RESPONSE_SENT (R175): the strap pins are read if the response was that of RESET FULL (R189). -/
  | responseSent (pins : StrapPins)
  /-- REPORT_FRAME_SENT (R184). -/
  | reportFrameSent
  /-- RUN_TOO_SHORT (R88). -/
  | runTooShort
  /-- BEAM_SAMPLE (R165). -/
  | beamSample (hall street : Beam)
  /-- CLEAR_SAMPLE (R145). -/
  | clearSample (pressed : Bool)
  /-- SOUNDER_SAMPLE (R160). -/
  | sounderSample
  deriving DecidableEq, Repr

end Sys2Proof
end

