-- ==== Sys2Proof/Machine/State.lean ====
section
/-! DEFINITION. The state of the part, block by block (spec 00, 0.2), its value right after reset, and the reasons a step can
stop. State is plain data. -/

namespace Sys2Proof.Machine

/-- The reasons a command can end in a fault. There is none: no rule of the spec stops the part, so no command raises one
(safe: nothing is cut short). -/
inductive Fault where
  deriving DecidableEq, Repr

/-- The reasons a command can be refused. -/
inductive Refusal where
  /-- Raised by an arm of `exec` whose row has no meaning yet (safe: the machine stops); no arm is left that raises it. -/
  | notModelled (mnemonic : String)
  deriving DecidableEq, Repr

/-! ## Field unit (chapter 1) -/

/-- A coil's state, with the round of its last failed drive check while it is FAULT (R5, R6). -/
inductive CoilState where
  | OK
  | FAULT (failed : Round)
  deriving DecidableEq, Repr

/-- The kind of a field window (R1). -/
inductive WindowKind where
  | SEARCH
  | FOLLOW
  deriving DecidableEq, Repr

/-- The record of a search half-sweep in progress: reply windows not yet closed (the first of them open), windows closed,
the counts C and E, and the items read (R8, R9, R15). -/
structure SearchSweep where
  toClose : Nat
  closed : Nat
  collided : Nat
  empty : Nat
  read : List ItemCode
  deriving DecidableEq, Repr

/-- The record of a follow half-sweep in progress: tracks not yet answered or missed (the first of them being called), the
called list as far as calls were made, and the answered set (R11, R12). -/
structure FollowSweep where
  waiting : List ItemCode
  called : List ItemCode
  answered : List ItemCode
  deriving DecidableEq, Repr

/-- The half-sweep in progress; its kind is the kind of the window (R1). -/
inductive Sweep where
  | search (r : SearchSweep)
  | follow (r : FollowSweep)
  deriving DecidableEq, Repr

/-- The window in flight: the half being run, and its half-sweep record (R1). -/
structure Window where
  half : Coil
  sweep : Sweep
  deriving DecidableEq, Repr

/-- The field unit. -/
structure FieldUnit where
  coilH : CoilState
  coilS : CoilState
  qx4 : Nat
  window : Option Window
  deriving DecidableEq, Repr

/-! ## Track unit and passage judgement (chapters 2 and 3) -/

/-- The start side of a track (R46, R53). -/
inductive StartSide where
  | notSet
  | HALL
  | STREET
  | MIDDLE
  | NONE
  deriving DecidableEq, Repr

/-- The phase of a track (R48). -/
inductive Phase where
  | OPEN
  | OUT
  | IN
  | BACK
  deriving DecidableEq, Repr

/-- The side of a track (R58). -/
inductive Side where
  | LEFT
  | RIGHT
  | UNSURE
  deriving DecidableEq, Repr

/-- The outcome of a verdict request (R68). -/
inductive Outcome where
  | PASS
  | EXCUSED
  | ALARM
  deriving DecidableEq, Repr

/-- The direction of a verdict (R66). -/
inductive Direction where
  | OUT
  | UNKNOWN
  | FADE_OUT
  deriving DecidableEq, Repr

/-- The verdict record of a track (R69). The lane reported is `none` for UNSURE. -/
structure VerdictRecord where
  outcome : Outcome
  direction : Direction
  lane : Option Nat
  loanTested : LoanWord
  held : Bool
  deriving DecidableEq, Repr

/-- A peer strength: strength, coil of best, round received (R20, R29). -/
structure PeerStrength where
  strength : Strength
  coil : Coil
  received : Round
  deriving DecidableEq, Repr

/-- The window mark of a track (R38). -/
inductive Mark where
  | none
  | read (best : Strength) (coil : Coil)
  | decayed
  deriving DecidableEq, Repr

/-- A record of the track table (R20). -/
structure Track where
  item : ItemCode
  loan : LoanWord
  firstRound : Round
  lastRead : Round
  reads : BitVec 8
  sH : Option Nat
  sS : Option Nat
  lastD : Option Int
  startSide : StartSide
  phase : Phase
  side : Side
  pL : Option PeerStrength
  pR : Option PeerStrength
  verdict : Option VerdictRecord
  peerAlarm : Option Nat
  mark : Mark
  deriving DecidableEq, Repr

/-- An entry of the sighting cache (R29). -/
structure CacheEntry where
  item : ItemCode
  left : Option PeerStrength
  right : Option PeerStrength
  deriving DecidableEq, Repr

/-- The track unit, with the last-broken rounds of passage judgement (R61). Tables are in creation order. -/
structure TrackUnit where
  table : List Track
  cache : List CacheEntry
  leftBroken : Option Round
  rightBroken : Option Round
  deriving DecidableEq, Repr

/-! ## Verdict unit (chapter 4) -/

/-- An entry of the excuse list (R76). -/
structure ExcuseEntry where
  item : ItemCode
  life : Nat
  deriving DecidableEq, Repr

/-- The verdict unit. The excuse list is stored in added order, earliest added first; R76's order of soonest expiry is read
from it (log entry 21). -/
structure VerdictUnit where
  excuses : List ExcuseEntry
  minute : Nat
  deriving DecidableEq, Repr

/-! ## Line unit (chapter 5) -/

/-- The line state (chapter 5). -/
inductive LineState where
  | LISTEN
  | SYNCED
  | LONE
  | CLASHED
  | SILENT
  deriving DecidableEq, Repr

/-- The timing of SILENT and CLASHED (R101). -/
inductive Timing where
  | FOLLOWING
  | FREE
  deriving DecidableEq, Repr

/-- Field class and notice class (R115, R129). -/
inductive SendClass where
  | FRESH
  | DEFERRED
  deriving DecidableEq, Repr

/-- The six lane codes (R141). -/
inductive LaneCode where
  | SOUND
  | HUSH_OCC
  | OCCUPIED
  | FAULT
  | HUSH_CLEAR
  | QUIET
  deriving DecidableEq, Repr

/-- A peer code: a lane code, or ABSENT (R95). -/
inductive PeerCode where
  | code (c : LaneCode)
  | ABSENT
  deriving DecidableEq, Repr

/-- A peer code record (R95). -/
structure PeerRecord where
  confirmed : PeerCode
  lastSeen : Option PeerCode
  deriving DecidableEq, Repr

/-- The cadence of a pedestal (R132). -/
inductive Cadence where
  | BRISK
  | CALM
  deriving DecidableEq, Repr

/-- The 10-bit slot word (R92). -/
structure SlotWord where
  left : LaneCode
  right : LaneCode
  fieldClass : SendClass
  hall : Beam
  street : Beam
  calm : Cadence
  deriving DecidableEq, Repr

/-- The outcome of a station slot (R93). -/
inductive SlotOutcome where
  | PRESENT (word : SlotWord)
  | ABSENT
  | NOT_RECEIVED
  deriving DecidableEq, Repr

/-- Whether the pedestal is sending its start mark, or held back at timer 20,000 on a dominant line (R88). -/
inductive StartMark where
  | idle
  | sending
  | heldBack
  deriving DecidableEq, Repr

/-- The line unit. -/
structure LineUnit where
  state : LineState
  timer : Nat
  listenTime : Nat
  round : Round
  timing : Timing
  dominantRun : Nat
  recessiveRun : Nat
  slots : Vector SlotOutcome 16
  requestSet : Option (BitVec 16)
  peerLeft : PeerRecord
  peerRight : PeerRecord
  clashMark : Bool
  fieldClass : SendClass
  noticeClass : SendClass
  slotWord : SlotWord
  startMark : StartMark
  deriving DecidableEq, Repr

/-! ## Access unit (chapter 7) -/

/-- The access unit. The request decision is `none` before the first SYNCED round start and outside SYNCED rounds. -/
structure AccessUnit where
  requests : Option Bool
  grant : Bool
  cadence : Cadence
  quietRounds : Nat
  peerCalm : Vector Cadence 16
  patternPosition : Fin 8
  deriving DecidableEq, Repr

/-! ## Notice queue (chapter 6) -/

/-- An entry of a SIGHTING notice (R109). -/
structure Sighting where
  item : ItemCode
  best : Strength
  coil : Coil
  deriving DecidableEq, Repr

/-- An entry of a VERDICT notice: lane and verdict value (R110, R197). -/
structure VerdictEntry where
  item : ItemCode
  lane : BitVec 4
  verdict : BitVec 4
  deriving DecidableEq, Repr

/-- An entry of an EXCUSE notice: item and life (R110). -/
structure ExcuseNote where
  item : ItemCode
  life : BitVec 8
  deriving DecidableEq, Repr

/-- The kind and entries of a notice (R106). -/
inductive NoticeBody where
  | SIGHTING (entries : List Sighting)
  | VERDICT (entries : List VerdictEntry)
  | EXCUSE (entries : List ExcuseNote)
  deriving DecidableEq, Repr

/-- A notice of the outbox, with its build round (R106). -/
structure Notice where
  body : NoticeBody
  built : Round
  deriving DecidableEq, Repr

/-- The in-flight mark on the head of the outbox, with how its contest for the slot now running stands: its bits are being placed,
it was lost in the arbitration field, or a bit of its body was read back wrong (R106, R112, R113). -/
inductive Flight where
  | NONE
  | PLACING
  | LOST
  | FAILED
  deriving DecidableEq, Repr

/-- The notice queue: the outbox, oldest first, and the in-flight mark of its head (R106). -/
structure NoticeQueue where
  outbox : List Notice
  inFlight : Flight
  deriving DecidableEq, Repr

/-! ## Lane unit (chapter 8) -/

/-- A lane machine, with its sound timer while SOUNDING and its flash phase while HUSHED (R139, R144, R150). -/
inductive LaneState where
  | ARMED
  | SOUNDING (timer : Nat)
  | HUSHED (lit : Bool)
  deriving DecidableEq, Repr

/-- The CLEAR filter (R145). -/
structure ClearFilter where
  pressed : Bool
  latest : Option Bool
  deriving DecidableEq, Repr

/-- The lane unit. A machine for a lane the station lacks is never read. -/
structure LaneUnit where
  left : LaneState
  right : LaneState
  clear : ClearFilter
  deriving DecidableEq, Repr

/-! ## Sounder (chapter 9) -/

/-- An entry of the cadence table. The level is REST (`none`) or so many dB below 0 (R155). -/
structure CadenceEntry where
  toneA : Nat
  toneB : Nat
  level : Option Nat
  duration : Nat
  deriving DecidableEq, Repr

/-- The latched entry: phase words, none for no tone, and amplitude, none for REST (R158, R160, R161). -/
structure Latched where
  nA : Option (BitVec 16)
  nB : Option (BitVec 16)
  amplitude : Option Nat
  deriving DecidableEq, Repr

/-- The sounder. `samplesLeft` counts the samples of the latched entry still to give, or, while an end marker stands at
entry 0, the samples to the next look at it (R158); `output` is the last sample given (R162). -/
structure Sounder where
  table : Vector CadenceEntry 16
  playing : Bool
  position : Fin 16
  samplesLeft : Nat
  latched : Option Latched
  accA : BitVec 16
  accB : BitVec 16
  output : Int
  deriving DecidableEq, Repr

/-! ## Beam unit (chapter 10) -/

/-- A beam filter (R165). -/
structure BeamFilter where
  confirmed : Beam
  latest : Option Beam
  deriving DecidableEq, Repr

/-- The footfall machine (R167). -/
inductive Footfall where
  | CLEAR
  | H1
  | H2
  | H3
  | S1
  | S2
  | S3
  | X
  deriving DecidableEq, Repr

/-- The five lane counts of the right lane, 24 bits, wrapping (R169). -/
structure LaneCounts where
  beamExits : BitVec 24
  beamEntries : BitVec 24
  tagAlarms : BitVec 24
  tagPasses : BitVec 24
  tagEntries : BitVec 24
  deriving DecidableEq, Repr

/-- The beam unit. -/
structure BeamUnit where
  hall : BeamFilter
  street : BeamFilter
  footfall : Footfall
  counts : LaneCounts
  deriving DecidableEq, Repr

/-! ## Host port (chapter 11) -/

/-- The receiver state (R174). -/
inductive Receiver where
  | HUNT
  | LENGTH
  | CODE
  | PAYLOAD
  | CHECK
  deriving DecidableEq, Repr

/-- The receive buffer (R174). -/
structure ReceiveBuffer where
  length : Nat
  code : Byte
  payload : List Byte
  deriving DecidableEq, Repr

/-- A frame less its sync byte, length and CRC-8, which follow from it (R173). -/
structure Frame where
  code : Byte
  payload : List Byte
  deriving DecidableEq, Repr

/-- The scope of a RESET command (R180). -/
inductive ResetScope where
  | FULL
  | ENGINE
  | COUNTS
  deriving DecidableEq, Repr

/-- A response frame, with the reset that acts when it has been sent (R175, R180). -/
structure Response where
  frame : Frame
  reset : Option ResetScope
  deriving DecidableEq, Repr

/-- The transmitter (R175). The oldest record is in transmission exactly while it is SENDING REPORT (R184). -/
inductive Transmitter where
  | IDLE
  | SENDING_RESPONSE
  | SENDING_REPORT
  deriving DecidableEq, Repr

/-- The fifteen parameters (R178). -/
structure Params where
  loanMask : BitVec 8
  readFloor : Nat
  decayStep : Nat
  tSide : Nat
  tCross : Nat
  mSide : Nat
  tSingle : Nat
  linger : Nat
  peerAge : Nat
  soundLimit : Nat
  volume : Nat
  pattern : BitVec 8
  calmAfter : Nat
  dormantDelay : Nat
  rowReports : Bool
  deriving DecidableEq, Repr

/-- The direction of a PASSAGE report (R52). -/
inductive ReportDirection where
  | OUT
  | IN
  | BACK
  | FADE_OUT
  | UNKNOWN
  deriving DecidableEq, Repr

/-- The causes of a LANE report (R152). -/
inductive LaneCause where
  | OWN
  | PEER
  | STAFF
  | HOST
  | LIMIT
  deriving DecidableEq, Repr

/-- The sources of a FAULT report (R181). -/
inductive FaultSource where
  | coil (c : Coil)
  | line
  deriving DecidableEq, Repr

/-- The events of a FAULT report (R181). -/
inductive FaultEvent where
  | FAILED
  | CLEARED
  | STUCK
  | CLASH
  deriving DecidableEq, Repr

/-- What a report record carries after its round stamp (R181). The lane of a PASSAGE is `none` for UNSURE, its verdict `none`
for NONE. -/
inductive ReportBody where
  | PASSAGE (item : ItemCode) (loan : LoanWord) (lane : Option Nat) (direction : ReportDirection) (verdict : Option Outcome)
      (held peerAlarm : Bool) (dwell : Round)
  | PEER_VERDICT (station : Fin 16) (item : ItemCode) (lane verdict : BitVec 4)
  | LANE (lane : Nat) (sounding : Bool) (cause : LaneCause)
  | FAULT (source : FaultSource) (event : FaultEvent)
  deriving DecidableEq, Repr

/-- A record of the report ring (R181). -/
structure Report where
  stamp : Round
  body : ReportBody
  deriving DecidableEq, Repr

/-- The six error counts, 16 bits, saturating (R185). -/
structure ErrorCounts where
  lineErrors : BitVec 16
  noticeCrc : BitVec 16
  evictions : BitVec 16
  outboxDrops : BitVec 16
  reportLosses : BitVec 16
  hostFrames : BitVec 16
  deriving DecidableEq, Repr

/-- The host port. -/
structure HostPort where
  receiver : Receiver
  buffer : ReceiveBuffer
  outstanding : Option Response
  transmitter : Transmitter
  params : Params
  ring : List Report
  streaming : Bool
  errors : ErrorCounts
  deriving DecidableEq, Repr

/-! ## Supply and start-up (chapter 12) -/

/-- The strap values held (R189). -/
structure Straps where
  station : Fin 16
  isEnd : Bool
  reach : Nat
  deriving DecidableEq, Repr

/-- The reset cause (R187). -/
inductive ResetCause where
  | POWER
  | SUPPLY
  | PIN
  | FULL
  deriving DecidableEq, Repr

/-- Whether the pedestal is in quiet hours (R192). -/
inductive Dormancy where
  | AWAKE
  | DORMANT
  deriving DecidableEq, Repr

/-- The supply and start-up block. `heldBy` lists the POWER-ON sources present; the part is held in reset while it is not
empty (R187). -/
structure SupplyUnit where
  heldBy : List PowerSource
  straps : Straps
  cause : ResetCause
  dormancy : Dormancy
  dormantRounds : Nat
  quietMinutes : Nat
  pendingEntry : Bool
  deriving DecidableEq, Repr

/-! ## The whole part -/

/-- The state of the part: its eleven blocks, and the queue of the commands that wait (the model's own, log entry 3). -/
@[ext]
structure State where
  field : FieldUnit
  track : TrackUnit
  verdict : VerdictUnit
  line : LineUnit
  access : AccessUnit
  notices : NoticeQueue
  lanes : LaneUnit
  sounder : Sounder
  beams : BeamUnit
  host : HostPort
  supply : SupplyUnit
  pending : List Instr
  deriving DecidableEq, Repr

namespace State

/-- Changes the field unit alone. -/
def onField (s : State) (f : FieldUnit → FieldUnit) : State := { s with field := f s.field }
/-- Changes the track unit alone. -/
def onTrack (s : State) (f : TrackUnit → TrackUnit) : State := { s with track := f s.track }
/-- Changes the verdict unit alone. -/
def onVerdict (s : State) (f : VerdictUnit → VerdictUnit) : State := { s with verdict := f s.verdict }
/-- Changes the line unit alone. -/
def onLine (s : State) (f : LineUnit → LineUnit) : State := { s with line := f s.line }
/-- Changes the access unit alone. -/
def onAccess (s : State) (f : AccessUnit → AccessUnit) : State := { s with access := f s.access }
/-- Changes the notice queue alone. -/
def onNotices (s : State) (f : NoticeQueue → NoticeQueue) : State := { s with notices := f s.notices }
/-- Changes the lane unit alone. -/
def onLanes (s : State) (f : LaneUnit → LaneUnit) : State := { s with lanes := f s.lanes }
/-- Changes the sounder alone. -/
def onSounder (s : State) (f : Sounder → Sounder) : State := { s with sounder := f s.sounder }
/-- Changes the beam unit alone. -/
def onBeams (s : State) (f : BeamUnit → BeamUnit) : State := { s with beams := f s.beams }
/-- Changes the host port alone. -/
def onHost (s : State) (f : HostPort → HostPort) : State := { s with host := f s.host }
/-- Changes the supply and start-up block alone. -/
def onSupply (s : State) (f : SupplyUnit → SupplyUnit) : State := { s with supply := f s.supply }

/-- The part right after a POWER-ON release: every field at the value the reset tables of the chapters give (R18, R40, R61,
R83, R105, R123, R137, R154, R163, R172, R186, R188). The strap values and the reset cause, which the spec takes from pins and
from the source, are the model's choice: station 0, END clear, reach 1, cause POWER (DESIGN CHOICE, log entries 1 and 2); so
is the slot word before the first round start (log entry 6). -/
def reset : State where
  field := { coilH := .OK, coilS := .OK, qx4 := 8, window := none }
  track := { table := [], cache := [], leftBroken := none, rightBroken := none }
  verdict := { excuses := [], minute := 0 }
  line :=
    { state := .LISTEN, timer := 0, listenTime := 0, round := 0, timing := .FOLLOWING, dominantRun := 0, recessiveRun := 0
      slots := Vector.replicate 16 .NOT_RECEIVED, requestSet := none
      peerLeft := { confirmed := .ABSENT, lastSeen := none }, peerRight := { confirmed := .ABSENT, lastSeen := none }
      clashMark := false, fieldClass := .FRESH, noticeClass := .FRESH
      slotWord := { left := .QUIET, right := .QUIET, fieldClass := .FRESH, hall := .CLEAR, street := .CLEAR, calm := .BRISK }
      startMark := .idle }
  access :=
    { requests := none, grant := false, cadence := .BRISK, quietRounds := 0, peerCalm := Vector.replicate 16 .CALM
      patternPosition := 0 }
  notices := { outbox := [], inFlight := .NONE }
  lanes := { left := .ARMED, right := .ARMED, clear := { pressed := true, latest := none } }
  sounder :=
    { table := Vector.ofFn fun i : Fin 16 =>
        if i = 0 then { toneA := 2400, toneB := 3000, level := some 0, duration := 25 }
        else if i = 1 then { toneA := 0, toneB := 0, level := none, duration := 10 }
        else if i = 2 then { toneA := 2400, toneB := 0, level := some 0, duration := 25 }
        else if i = 3 then { toneA := 0, toneB := 0, level := none, duration := 15 }
        else { toneA := 0, toneB := 0, level := none, duration := 0 }
      playing := false, position := 0, samplesLeft := 0, latched := none, accA := 0, accB := 0, output := 0 }
  beams :=
    { hall := { confirmed := .CLEAR, latest := none }, street := { confirmed := .CLEAR, latest := none }, footfall := .CLEAR
      counts := { beamExits := 0, beamEntries := 0, tagAlarms := 0, tagPasses := 0, tagEntries := 0 } }
  host :=
    { receiver := .HUNT, buffer := { length := 0, code := 0, payload := [] }, outstanding := none, transmitter := .IDLE
      params :=
        { loanMask := 0x01, readFloor := 12, decayStep := 8, tSide := 24, tCross := 40, mSide := 6, tSingle := 200, linger := 25
          peerAge := 25, soundLimit := 400, volume := 4, pattern := 0b10110110, calmAfter := 250, dormantDelay := 10
          rowReports := false }
      ring := [], streaming := false
      errors := { lineErrors := 0, noticeCrc := 0, evictions := 0, outboxDrops := 0, reportLosses := 0, hostFrames := 0 } }
  supply :=
    { heldBy := [], straps := { station := 0, isEnd := false, reach := 1 }, cause := .POWER, dormancy := .AWAKE
      dormantRounds := 0, quietMinutes := 0, pendingEntry := false }
  pending := []

end State

end Sys2Proof.Machine
end

