-- ==== Sys2Proof/Machine/Operands.lean ====
section
/-! DEFINITION. What the commands bring from outside, and how it is read: bit strings, the two CRCs, station slots, notices, tag
replies, host frames and the codes of chapter 13. -/

namespace Sys2Proof.Machine

/-! ## Bit and byte strings -/

/-- The bits of a field in sending order, most significant first (00, 0.5; chapter 13). -/
def bitsOf {w : Nat} (x : BitVec w) : List Bool := (List.range w).map fun i => x.getMsbD i

/-- The number a bit string spells, most significant bit first. -/
def natOfBits (bits : List Bool) : Nat := bits.foldl (fun n b => 2 * n + b.toNat) 0

/-- The `w`-bit field a bit string spells, most significant bit first. -/
def fieldOfBits (w : Nat) (bits : List Bool) : BitVec w := BitVec.ofNat w (natOfBits bits)

/-- `len` bits of a bit string from bit `start` on. -/
def bitSlice (start len : Nat) (bits : List Bool) : List Bool := (bits.drop start).take len

/-- A number as `n` bytes, most significant byte first (chapter 13). -/
def beBytes (n x : Nat) : List Byte := (List.range n).map fun i => BitVec.ofNat 8 (x / 2 ^ (8 * (n - 1 - i)))

/-- The number a byte string spells, most significant byte first (chapter 13). -/
def natOfBytes (bytes : List Byte) : Nat := bytes.foldl (fun n b => 256 * n + b.toNat) 0

/-- A bit string as bytes, the last one filled with 0 (R201). -/
def packBits (bits : List Bool) : List Byte :=
  (List.range ((bits.length + 7) / 8)).map fun i =>
    fieldOfBits 8 (bitSlice (8 * i) 8 (bits ++ List.replicate 7 false))

/-! ## CRC (R199, R200) -/

/-- One covered bit taken into a CRC register (R199). -/
def crcStep {w : Nat} (poly register : BitVec w) (bit : Bool) : BitVec w :=
  if register.msb != bit then (register <<< 1) ^^^ poly else register <<< 1

/-- The CRC-16 of a notice or a tag reply over its covered bits (R199). -/
def crc16 (covered : List Bool) : BitVec 16 := covered.foldl (crcStep 0x1021) 0xFFFF

/-- The CRC-8 of a host frame over length, code and payload (R200). -/
def crc8 (bytes : List Byte) : BitVec 8 := (bytes.flatMap bitsOf).foldl (crcStep 0x07) 0xFF

/-! ## Straps (R189) -/

/-- The strap values read from the pins (R189). -/
def readStraps (pins : StrapPins) : Straps :=
  { station := pins.station.toFin, isEnd := pins.endHigh, reach := if pins.reachHigh then 2 else 1 }

/-- The reset cause a POWER-ON leaves, from the source present last (R187). -/
def causeOf : PowerSource → ResetCause
  | .supplyRise => .POWER
  | .supplyDip => .SUPPLY
  | .resetPin => .PIN

/-! ## Tag replies (R9, R13, R198) -/

/-- The strength v of a reply: a whole number limited to 0..127 (R13). -/
def readStrength (x : Int) : Strength := BitVec.ofNat 7 (clampInt 0 127 x).toNat

/-- The CRC-16 of a tag reply, over item code and loan word (R198). -/
def tagCrc (item : ItemCode) (loan : LoanWord) : BitVec 16 := crc16 (bitsOf item ++ bitsOf loan)

/-- A good reply: item code, loan word and strength. -/
structure Reply where
  item : ItemCode
  loan : LoanWord
  v : Strength
  deriving DecidableEq, Repr

/-- The good reply of a reception, if its tag CRC is good (R9, R199). -/
def goodReply : Reception → Option Reply
  | .reply item loan crc strength =>
    if crc = tagCrc item loan then some { item := item, loan := loan, v := readStrength strength } else none
  | .silence => none
  | .disturbed => none

/-! ## Spacers, marks and the fields of a round (R85, R86, R195) -/

/-- The levels of a sent mark, true recessive: 12 bit times dominant, then 4 recessive (R85, R195). -/
def markLevels : List Bool := List.replicate 12 false ++ List.replicate 4 true

/-- Whether bit time `i` of a field, counted from the field's own first bit time, is a spacer (R85). -/
def isSpacer (i : Nat) : Bool := i % 8 = 7

/-- The bit time of data bit `d` of a field, the spacers passed over (R85, R197). -/
def dataTime (d : Nat) : Nat := d + d / 7

/-- The levels of the `times` bit times of a field in which data bits are placed: recessive in every spacer and after the last
data bit (R85, R102, R197). -/
def placeData (times : Nat) (data : List Bool) : List Bool :=
  (List.range times).map fun i => isSpacer i || data.getD (i - i / 8) true

/-- `count` data bits of a field picked from the levels of its bit times, a bit time not given reading as recessive
(R102, R197). -/
def pickData (count : Nat) (levels : List Bool) : List Bool := (List.range count).map fun d => levels.getD (dataTime d) true

/-! ## Station slots (R92, R93, R196) -/

/-- The number of a lane code (R196). -/
def laneCodeBits : LaneCode → BitVec 3
  | .SOUND => 0
  | .HUSH_OCC => 1
  | .OCCUPIED => 2
  | .FAULT => 3
  | .HUSH_CLEAR => 4
  | .QUIET => 5

/-- The lane code of a number; 6 and 7 are none (R196). -/
def laneCodeOf (n : BitVec 3) : Option LaneCode :=
  if n = 0 then some .SOUND
  else if n = 1 then some .HUSH_OCC
  else if n = 2 then some .OCCUPIED
  else if n = 3 then some .FAULT
  else if n = 4 then some .HUSH_CLEAR
  else if n = 5 then some .QUIET
  else none

/-- 1 for DEFERRED (R196, R197). -/
def classBit (c : SendClass) : Bool := c = .DEFERRED

/-- The levels of the 16 bit times of a sent slot, 1 recessive, in sending order: presence, the slot word with its spacer, the
guard (R92, R196). -/
def slotLevels (w : SlotWord) : List Bool :=
  [false] ++ bitsOf (laneCodeBits w.left) ++ bitsOf (laneCodeBits w.right) ++ [true] ++
    [classBit w.fieldClass, w.hall = .BROKEN, w.street = .BROKEN, w.calm = .CALM] ++ [true, true, true, true]

/-- The sent slot as read back undisturbed: bit i is the level of bit time i (R97, R196). -/
def slotBits (w : SlotWord) : BitVec 16 := BitVec.ofNat 16 (natOfBits (slotLevels w).reverse)

/-- The outcome of a slot from the levels read in it (R93). -/
def slotOutcome (bits : BitVec 16) : SlotOutcome :=
  let at_ (i : Nat) : Bool := bits.getLsbD i
  if at_ 0 then .ABSENT
  else if at_ 7 && at_ 12 && at_ 13 && at_ 14 && at_ 15 then
    match laneCodeOf (fieldOfBits 3 [at_ 1, at_ 2, at_ 3]), laneCodeOf (fieldOfBits 3 [at_ 4, at_ 5, at_ 6]) with
    | some l, some r =>
      .PRESENT
        { left := l, right := r
          fieldClass := if at_ 8 then .DEFERRED else .FRESH
          hall := if at_ 9 then .BROKEN else .CLEAR
          street := if at_ 10 then .BROKEN else .CLEAR
          calm := if at_ 11 then .CALM else .BRISK }
    | _, _ => .NOT_RECEIVED
  else .NOT_RECEIVED

/-- The field class of a slot as it is handed on (R94). -/
def slotClass : SlotOutcome → SendClass
  | .PRESENT w => w.fieldClass
  | .ABSENT => .FRESH
  | .NOT_RECEIVED => .FRESH

/-- The calm value of a slot as it is handed on (R94, R134). -/
def slotCalm : SlotOutcome → Cadence
  | .PRESENT w => w.calm
  | .ABSENT => .CALM
  | .NOT_RECEIVED => .CALM

/-- Whether a slot as handed on has a beam bit broken (R61, R94). -/
def slotBeamBroken : SlotOutcome → Bool
  | .PRESENT w => w.hall = .BROKEN || w.street = .BROKEN
  | .ABSENT => false
  | .NOT_RECEIVED => false

/-- The observation a slot gives of one of its two lane codes, or none (R94, R95). -/
def slotObservation (pick : SlotWord → LaneCode) : SlotOutcome → Option PeerCode
  | .PRESENT w => some (.code (pick w))
  | .ABSENT => some .ABSENT
  | .NOT_RECEIVED => none

/-- The round timer at the last bit time of station slot n (R195). -/
def slotLastBit (n : Nat) : Nat := 31 + 16 * n

/-! ## The request field (R96, R195) -/

/-- Bit times of the request field: sixteen request bits, two spacers, two guard bit times (R195). -/
def requestBitTimes : Nat := 20

/-- The levels of the request field as a station that requests drives it: its own bit dominant, every other bit time recessive
(R96, R195). -/
def requestLevels (station : Nat) : List Bool := placeData requestBitTimes ((List.range 16).map fun n => n ≠ station)

/-- The stations whose request bit read dominant: bit n of the set is the bit of station n, at its bit time of the field. The
field holds stations 0 to 6, a spacer, 7 to 13, a spacer, 14 and 15, and the guard (R96, R195). -/
def requestSetOf (levels : BitVec 20) : BitVec 16 :=
  ~~~(levels.extractLsb' 16 2 ++ levels.extractLsb' 8 7 ++ levels.extractLsb' 0 7)

/-! ## Notices (R112, R113, R117, R197) -/

/-- 1 for the S coil (R197). -/
def coilBit (c : Coil) : Bool := c = .S

/-- The kind and the entries of 72 bits of a notice body (R197). -/
def bodyParts : NoticeBody → BitVec 2 × List (List Bool)
  | .SIGHTING es => (0, es.map fun e => bitsOf e.item ++ bitsOf e.best ++ [coilBit e.coil])
  | .VERDICT es => (1, es.map fun e => bitsOf e.item ++ bitsOf e.lane ++ bitsOf e.verdict)
  | .EXCUSE es => (2, es.map fun e => bitsOf e.item ++ bitsOf e.life)

/-- Kind, count and entries, the bits the notice CRC covers (R113). -/
def coveredBits (body : NoticeBody) : List Bool :=
  let parts := bodyParts body
  bitsOf parts.1 ++ bitsOf (BitVec.ofNat 4 parts.2.length) ++ parts.2.flatten

/-- The arbitration field: notice class and station number (R112). -/
def arbitrationBits (c : SendClass) (station : Fin 16) : List Bool := classBit c :: bitsOf (BitVec.ofNat 4 station.val)

/-- The data bits of a notice as its sender places them (R112, R113). -/
def noticeBits (c : SendClass) (station : Fin 16) (body : NoticeBody) : List Bool :=
  arbitrationBits c station ++ coveredBits body ++ bitsOf (crc16 (coveredBits body))

/-- Bit times of a notice slot (R86, R195). -/
def noticeBitTimes : Nat := 720

/-- Data bits of a notice slot: its bit times less 90 spacers (R195, R197). -/
def noticeDataBits : Nat := 630

/-- The data bits of a notice slot, picked from what the line read in its bit times (R102, R197). -/
def slotData (levels : List Bool) : List Bool := pickData noticeDataBits levels

/-- The entries of a received notice, from its bits by kind (R197). -/
def bodyOfBits (kind : Nat) (entries : List (List Bool)) : NoticeBody :=
  if kind = 0 then
    .SIGHTING (entries.map fun e =>
      { item := fieldOfBits 64 (bitSlice 0 64 e), best := fieldOfBits 7 (bitSlice 64 7 e)
        coil := if natOfBits (bitSlice 71 1 e) = 1 then .S else .H })
  else if kind = 1 then
    .VERDICT (entries.map fun e =>
      { item := fieldOfBits 64 (bitSlice 0 64 e), lane := fieldOfBits 4 (bitSlice 64 4 e)
        verdict := fieldOfBits 4 (bitSlice 68 4 e) })
  else
    .EXCUSE (entries.map fun e =>
      { item := fieldOfBits 64 (bitSlice 0 64 e), life := fieldOfBits 8 (bitSlice 64 8 e) })

/-- The body of a received notice, or none for a bad one: kind 3, count 0 or 9..15, or a CRC that differs (R117). -/
def noticeBody (bits : List Bool) : Option NoticeBody :=
  let kind := natOfBits (bitSlice 5 2 bits)
  let count := natOfBits (bitSlice 7 4 bits)
  if kind = 3 || count = 0 || 8 < count then none
  else if bitsOf (crc16 (bitSlice 5 (6 + 72 * count) bits)) = bitSlice (11 + 72 * count) 16 bits then
    some (bodyOfBits kind ((List.range count).map fun i => bitSlice (11 + 72 * i) 72 bits))
  else none

/-- The station number of a received notice (R112). -/
def noticeStation (bits : List Bool) : Fin 16 := (fieldOfBits 4 (bitSlice 1 4 bits)).toFin

/-- Whether some bit placed recessive was read dominant (R112, R113). -/
def overridden (placed read : List Bool) : Bool := (placed.zip read).any fun pr => pr.1 && !pr.2

/-- How the contest of a slot stands, from the bits placed and the bits read so far (R112, R113). -/
def contestOf (placed read : List Bool) : Flight :=
  if overridden (placed.take 5) (read.take 5) then .LOST
  else if overridden (placed.drop 5) (read.drop 5) then .FAILED
  else .PLACING

/-! ## Host frames (R173, R200) -/

/-- The bytes of a frame on the link (R173). -/
def frameBytes (f : Frame) : List Byte :=
  let covered := BitVec.ofNat 8 f.payload.length :: f.code :: f.payload
  0xC3 :: covered ++ [crc8 covered]

/-- The reasons of refusal (R176, R201). -/
inductive Reason where
  | UNKNOWN
  | LENGTH
  | NO_LANE
  | LANE_ACTIVE
  deriving DecidableEq, Repr

/-- The byte of a reason (R201). -/
def reasonByte : Reason → Byte
  | .UNKNOWN => 1
  | .LENGTH => 2
  | .NO_LANE => 3
  | .LANE_ACTIVE => 4

/-- What a command answers: its data, or a reason of refusal (R176). -/
inductive Answer where
  | DONE (data : List Byte)
  | REFUSED (reason : Reason)
  deriving DecidableEq, Repr

/-- The response frame of an answer (R201). -/
def answerFrame (code : Byte) : Answer → Frame
  | .DONE data => { code := code + 0x80, payload := data }
  | .REFUSED r => { code := code + 0xC0, payload := [reasonByte r] }

/-- The response frame to a code that names no command (R201). -/
def unknownFrame (code : Byte) : Frame := { code := 0xFE, payload := [reasonByte .UNKNOWN, code] }

/-- A level byte of CADENCE as stored: 0x80 for REST, else dB below 0 after the clamping of R156 (R200). -/
def storedLevel (b : Byte) : Option Nat :=
  if b = 0x80 then none
  else
    let below := (-b.toInt).toNat
    some (min 30 (2 * ((below + 1) / 2)))

/-- The level byte of a stored level (R200, R201). -/
def levelByte : Option Nat → Byte
  | none => 0x80
  | some below => BitVec.ofInt 8 (-(below : Int))

/-- A tone as stored (R156). -/
def storedTone (f : Nat) : Nat := if f = 0 then 0 else clampNat 200 4000 f

/-! ## Codes of the response data (R201) -/

/-- The line state byte of STATUS. R201 gives SILENT none: a free value (log entry 19). -/
def lineStateByte : LineState → Byte
  | .LISTEN => 1
  | .SYNCED => 2
  | .LONE => 3
  | .CLASHED => 4
  | .SILENT => Config.silentLineStateCode

/-- The cadence byte of STATUS (R201). -/
def cadenceByte : Cadence → Byte
  | .BRISK => 0
  | .CALM => 1

/-- The lane state byte of STATUS and HUSH for a machine the station has (R201). -/
def laneStateByte : LaneState → Byte
  | .ARMED => 0
  | .SOUNDING _ => 1
  | .HUSHED _ => 2

/-- The peer code byte of STATUS for a lane the station has (R201). -/
def peerCodeByte : PeerCode → Byte
  | .code c => (laneCodeBits c).setWidth 8
  | .ABSENT => 6

/-- The reset cause byte of IDENTIFY (R201). -/
def causeByte : ResetCause → Byte
  | .POWER => 1
  | .SUPPLY => 2
  | .PIN => 3
  | .FULL => 4

/-- The straps byte of IDENTIFY: station in bits 7 to 4, END in bit 1, reach in bit 0 (R201). DESIGN CHOICE: bits 3 and 2, which
R201 gives no value, are sent as 0 (log entry 37). -/
def strapsByte (s : Straps) : Byte :=
  BitVec.ofNat 8 (16 * s.station.val + 2 * s.isEnd.toNat + (if s.reach = 2 then 1 else 0))

/-- The verdict code of a track summary and of a PASSAGE record (R201, R202). -/
def verdictCode : Option Outcome → Nat
  | none => 0
  | some .ALARM => 1
  | some .PASS => 2
  | some .EXCUSED => 3

/-- The start side code of a track summary (R201). -/
def startSideCode : StartSide → Nat
  | .notSet => 0
  | .HALL => 1
  | .STREET => 2
  | .MIDDLE => 3
  | .NONE => 4

/-- The phase code of a track summary (R201). -/
def phaseCode : Phase → Nat
  | .OPEN => 0
  | .OUT => 1
  | .IN => 2
  | .BACK => 3

/-- The side code of a track summary (R201). -/
def sideCode : Side → Nat
  | .LEFT => 0
  | .RIGHT => 1
  | .UNSURE => 2

/-- A number as a field of `w` bits. -/
def fieldBits (w n : Nat) : List Bool := bitsOf (BitVec.ofNat w n)

/-- The 15 bits of a peer strength in a track summary (R201). -/
def peerStrengthBits (now : Round) : Option PeerStrength → List Bool
  | none => List.replicate 15 false
  | some p => true :: bitsOf p.strength ++ [coilBit p.coil] ++ fieldBits 6 (min 63 (roundsSince now p.received))

/-- The 158 bits of a track summary (R39, R201). The last-read age stays at 250, the limit R201 gives it. -/
def summaryBits (now : Round) (t : Track) : List Bool :=
  bitsOf t.item ++ bitsOf t.loan ++ bitsOf t.reads ++ fieldBits 8 (min 250 (roundsSince now t.lastRead)) ++
    fieldBits 9 (min 511 (roundsSince t.lastRead t.firstRound)) ++ fieldBits 9 (t.sH.getD 0) ++ fieldBits 9 (t.sS.getD 0) ++
    fieldBits 3 (startSideCode t.startSide) ++ fieldBits 2 (phaseCode t.phase) ++ fieldBits 2 (sideCode t.side) ++
    fieldBits 2 (verdictCode (t.verdict.map VerdictRecord.outcome)) ++ fieldBits 4 (t.peerAlarm.getD 15) ++
    peerStrengthBits now t.pL ++ peerStrengthBits now t.pR

/-- The direction byte of a PASSAGE record (R202). -/
def directionByte : ReportDirection → Byte
  | .OUT => 1
  | .IN => 2
  | .BACK => 3
  | .FADE_OUT => 4
  | .UNKNOWN => 5

/-- The cause byte of a LANE record (R202). -/
def laneCauseByte : LaneCause → Byte
  | .OWN => 1
  | .PEER => 2
  | .STAFF => 3
  | .HOST => 4
  | .LIMIT => 5

/-- The source byte of a FAULT record (R202). -/
def faultSourceByte : FaultSource → Byte
  | .coil .H => 1
  | .coil .S => 2
  | .line => 3

/-- The event byte of a FAULT record (R202). -/
def faultEventByte : FaultEvent → Byte
  | .FAILED => 1
  | .CLEARED => 2
  | .STUCK => 3
  | .CLASH => 4

/-- The flags byte of a PASSAGE record: held in bit 1, peer-alarm in bit 0 (R202). DESIGN CHOICE: bits 7 to 2, which R202 gives no
value, are sent as 0 (log entry 37). -/
def passageFlags (held peerAlarm : Bool) : Byte := BitVec.ofNat 8 (2 * held.toNat + peerAlarm.toNat)

/-- The bytes of a report record (R202). -/
def reportBytes (r : Report) : List Byte :=
  let stamp := beBytes 4 r.stamp.toNat
  match r.body with
  | .PASSAGE item loan lane direction verdict held peerAlarm dwell =>
    [(1 : Byte)] ++ stamp ++ beBytes 8 item.toNat ++
      [loan, match lane with | none => 0xFF | some l => BitVec.ofNat 8 l, directionByte direction,
        BitVec.ofNat 8 (verdictCode verdict), passageFlags held peerAlarm] ++ beBytes 4 dwell.toNat
  | .PEER_VERDICT station item lane verdict =>
    [(2 : Byte)] ++ stamp ++ [BitVec.ofNat 8 station.val] ++ beBytes 8 item.toNat ++ [lane.setWidth 8, verdict.setWidth 8]
  | .LANE lane sounding cause => [(3 : Byte)] ++ stamp ++ [BitVec.ofNat 8 lane, if sounding then 1 else 2, laneCauseByte cause]
  | .FAULT source event => [(4 : Byte)] ++ stamp ++ [faultSourceByte source, faultEventByte event]

/-- The REPORT frame of a record (R201). -/
def reportFrame (r : Report) : Frame := { code := 0xF0, payload := reportBytes r }

/-- A cadence entry as the 7 bytes of CADENCE (R200, R201). -/
def cadenceBytes (index : Fin 16) (e : CadenceEntry) : List Byte :=
  [BitVec.ofNat 8 index.val] ++ beBytes 2 e.toneA ++ beBytes 2 e.toneB ++ [levelByte e.level, BitVec.ofNat 8 e.duration]

end Sys2Proof.Machine
end

