-- ==== Sys2Proof/Machine/Flags.lean ====
section
/-! DEFINITION. What is read off the state: lanes, reach, coil modes, occupancy, quiet and due tests, the views that stand for the
output pins, and the saturating and wrapping counts. -/

namespace Sys2Proof.Machine

/-! ## The pedestal's place in the row (00, 0.4) -/

/-- The own station number. -/
def State.station (s : State) : Nat := s.supply.straps.station.val

/-- The own round count (R87). -/
def State.now (s : State) : Round := s.line.round

/-- The parameters (R178). -/
def State.params (s : State) : Params := s.host.params

/-- Whether the station has a left lane: s > 0 (00, 0.4). -/
def hasLeft (s : State) : Bool := s.station ≠ 0

/-- Whether the station has a right lane: END clear (00, 0.4). DESIGN CHOICE for station 15, log entry 29: with END clear it keeps
its right lane, though lanes are numbered 0 to 14. -/
def hasRight (s : State) : Bool := !s.supply.straps.isEnd

/-- Whether the station has the lane on that side. -/
def hasLane (s : State) : LaneSide → Bool
  | .left => hasLeft s
  | .right => hasRight s

/-- Whether the station has two lanes. -/
def twoLanes (s : State) : Bool := hasLeft s && hasRight s

/-- The number of the lane on that side: s-1 or s (00, 0.4). DESIGN CHOICE for station 15, log entry 29: the number of its right
lane is 15. -/
def laneNumber (s : State) : LaneSide → Nat
  | .left => s.station - 1
  | .right => s.station

/-- Whether station j is within reach: 0 < |j - s| ≤ R (00, 0.4). -/
def withinReach (s : State) (j : Fin 16) : Bool :=
  j.val ≠ s.station && j.val ≤ s.station + s.supply.straps.reach && s.station ≤ j.val + s.supply.straps.reach

/-! ## Coils (R4, R6, R44) -/

/-- The state of a coil. -/
def coilState (s : State) : Coil → CoilState
  | .H => s.field.coilH
  | .S => s.field.coilS

/-- Whether a coil is FAULT. -/
def coilFault (s : State) (c : Coil) : Bool := coilState s c ≠ .OK

/-- Whether both coils are FAULT (R7). -/
def bothFault (s : State) : Bool := coilFault s .H && coilFault s .S

/-- Whether exactly one coil is FAULT: single-coil mode (R53, R56). -/
def oneFault (s : State) : Bool := coilFault s .H != coilFault s .S

/-- Whether a retry is due on a coil: FAULT, and its failure round 250 rounds back or more (R6). -/
def retryDue (s : State) (c : Coil) : Bool :=
  match coilState s c with
  | .OK => false
  | .FAULT failed => Config.retryRounds ≤ roundsSince s.now failed

/-- Whether some coil can make a drive check: OK, or FAULT with a retry due (R124, R135). -/
def coilUsable (s : State) : Bool := !bothFault s || retryDue s .H || retryDue s .S

/-- The mode of a window end (R44). -/
inductive CoilMode where
  | twoCoil
  | single (working : Coil)
  | noCoil
  deriving DecidableEq, Repr

/-- The mode that the coil states give (R44). -/
def coilMode (s : State) : CoilMode :=
  match coilFault s .H, coilFault s .S with
  | false, false => .twoCoil
  | false, true => .single .H
  | true, false => .single .S
  | true, true => .noCoil

/-! ## Lanes (chapter 8) -/

/-- The lane machine on a side (R139). -/
def laneState (s : State) : LaneSide → LaneState
  | .left => s.lanes.left
  | .right => s.lanes.right

/-- The peer code record of a lane (R95). -/
def peerRecord (s : State) : LaneSide → PeerRecord
  | .left => s.line.peerLeft
  | .right => s.line.peerRight

/-- Whether a lane machine is SOUNDING. -/
def isSounding : LaneState → Bool
  | .SOUNDING _ => true
  | .ARMED => false
  | .HUSHED _ => false

/-- Whether a lane machine is HUSHED. -/
def isHushed : LaneState → Bool
  | .HUSHED _ => true
  | .ARMED => false
  | .SOUNDING _ => false

/-- Whether a machine the station has is SOUNDING on that side. -/
def sounds (s : State) (l : LaneSide) : Bool := hasLane s l && isSounding (laneState s l)

/-- Whether at least one lane machine of the pedestal is SOUNDING (R151). -/
def anySounding (s : State) : Bool := sounds s .left || sounds s .right

/-- Whether a track's side names a lane; UNSURE names both, at a station with two lanes (R140). -/
def sideNames (s : State) (side : Side) : LaneSide → Bool
  | .left => side = .LEFT || (side = .UNSURE && twoLanes s)
  | .right => side = .RIGHT || (side = .UNSURE && twoLanes s)

/-- Whether a lane is occupied at this flank (R140). -/
def occupied (s : State) (l : LaneSide) : Bool := s.track.table.any fun t => sideNames s t.side l

/-- The code the pedestal gives for a lane (R141). -/
def laneCodeNow (s : State) (l : LaneSide) : LaneCode :=
  if !hasLane s l then .QUIET
  else if bothFault s then .FAULT
  else
    match laneState s l with
    | .ARMED => if occupied s l then .OCCUPIED else .QUIET
    | .SOUNDING _ => .SOUND
    | .HUSHED _ => if occupied s l then .HUSH_OCC else .HUSH_CLEAR

/-- The slot word as the blocks give it (R92, R141, R171). -/
def slotWordNow (s : State) : SlotWord where
  left := laneCodeNow s .left
  right := laneCodeNow s .right
  fieldClass := s.line.fieldClass
  hall := if hasRight s then s.beams.hall.confirmed else .CLEAR
  street := if hasRight s then s.beams.street.confirmed else .CLEAR
  calm := s.access.cadence

/-- Whether a peer code is a hush code (R143). -/
def isHushCode (c : PeerCode) : Bool := c = .code .HUSH_OCC || c = .code .HUSH_CLEAR

/-- Whether a peer code stands against re-arming (R148). -/
def blocksRearm (c : PeerCode) : Bool := c = .code .SOUND || c = .code .HUSH_OCC

/-- Whether a peer code counts as quiet for the dormant timer (R190, R191). -/
def quietCode (c : PeerCode) : Bool := c = .code .QUIET || c = .ABSENT

/-! ## Tests of the rules -/

/-- Whether either own beam is confirmed BROKEN, at a station that has beams (R132, R166). -/
def beamBroken (s : State) : Bool := hasRight s && (s.beams.hall.confirmed = .BROKEN || s.beams.street.confirmed = .BROKEN)

/-- Whether a lane is recent: seen broken in the current round or in one of the 24 before (R61). -/
def recent (s : State) (l : LaneSide) : Bool :=
  let last := match l with
    | .left => s.track.leftBroken
    | .right => s.track.rightBroken
  hasLane s l && match last with
    | none => false
    | some r => roundsSince s.now r ≤ Config.recentRounds

/-- The strength a peer strength counts for in the side decision: 0 when absent or not fresh (R32, R58). -/
def freshStrength (s : State) : Option PeerStrength → Nat
  | none => 0
  | some p => if roundsSince s.now p.received ≤ s.params.peerAge then p.strength.toNat else 0

/-- Whether a part of a cache entry is older than peer_age; an absent part is (R30). -/
def partOld (s : State) : Option PeerStrength → Bool
  | none => true
  | some p => s.params.peerAge < roundsSince s.now p.received

/-- Whether a track's age exceeds linger (R36). -/
def overdue (s : State) (t : Track) : Bool := s.params.linger < roundsSince s.now t.lastRead

/-- Whether the pedestal is quiet (R190). -/
def quiet (s : State) : Bool :=
  s.track.table.isEmpty && !beamBroken s &&
    (!hasLeft s || quietCode s.line.peerLeft.confirmed) && (!hasRight s || quietCode s.line.peerRight.confirmed) &&
    (List.finRange 16).all fun j => !withinReach s j || s.access.peerCalm[j] = .CALM

/-- Whether a frame is a response to a RESET command, DONE or REFUSED: a response carries the code of the command it answers
(R176, R201). -/
def answersReset (f : Frame) : Bool := f.code = 0x90 || f.code = 0xD0

/-- Whether a response to a RESET command is outstanding, waiting or being sent (R175, R180, R191). -/
def resetOutstanding (s : State) : Bool :=
  match s.host.outstanding with
  | none => false
  | some r => answersReset r.frame

/-- Whether DORMANT entry by the timer can be made now (R191). -/
def mayRest (s : State) : Bool := !anySounding s && !resetOutstanding s

/-- Whether the part is held in reset (R187). -/
def heldInReset (s : State) : Bool := !s.supply.heldBy.isEmpty

/-- Whether the line unit reads station slots (R93, R101). -/
def readsSlots (s : State) : Bool :=
  match s.line.state with
  | .SYNCED => true
  | .CLASHED => s.line.timing = .FOLLOWING
  | .SILENT => s.line.timing = .FOLLOWING
  | .LISTEN => false
  | .LONE => false

/-- Whether codes, beam bits and notices are taken: SYNCED, and CLASHED while not DORMANT (R61, R95, R102). -/
def takesRow (s : State) : Bool :=
  s.line.state = .SYNCED || (s.line.state = .CLASHED && s.supply.dormancy = .AWAKE)

/-- Whether this round is one of the pedestal's LONE rounds (R135). -/
def loneRound (s : State) : Bool :=
  let m := 2 * s.supply.straps.reach + 1
  s.now.toNat % m = s.station % m && coilUsable s

/-- Whether the pedestal requests the field in this round (R124). -/
def requestNow (s : State) : Bool :=
  coilUsable s && (s.access.cadence = .BRISK || s.now.toNat % 8 = 0)

/-- Whether station j's class gives it precedence over the own station (R126). The own class is the field class held (DESIGN
CHOICE, log entry 32). -/
def precedes (s : State) (j : Fin 16) : Bool :=
  match slotClass s.line.slots[j], s.line.fieldClass with
  | .FRESH, .DEFERRED => true
  | .DEFERRED, .FRESH => false
  | .FRESH, .FRESH => j.val < s.station
  | .DEFERRED, .DEFERRED => j.val < s.station

/-- The grant rule (R126). -/
def grantRule (s : State) (requests : BitVec 16) : Bool :=
  s.access.requests = some true &&
    (List.finRange 16).all fun j => !(withinReach s j && requests.getLsbD j.val && precedes s j)

/-- Whether a station within reach requested as FRESH (R129). -/
def freshRival (s : State) : Bool :=
  match s.line.requestSet with
  | none => false
  | some requests =>
    (List.finRange 16).any fun j => withinReach s j && requests.getLsbD j.val && slotClass s.line.slots[j] = .FRESH

/-! ## Counts (R169, R185) -/

/-- Changes the error counts alone. -/
def onErrors (f : ErrorCounts → ErrorCounts) (s : State) : State := s.onHost fun h => { h with errors := f h.errors }

/-- A line error (R90, R97, R113). -/
def lineError : State → State := onErrors fun e => { e with lineErrors := satSucc e.lineErrors }

/-- A discarded notice (R117). -/
def noticeCrcError : State → State := onErrors fun e => { e with noticeCrc := satSucc e.noticeCrc }

/-- An evicted track (R33). -/
def evictionCounted : State → State := onErrors fun e => { e with evictions := satSucc e.evictions }

/-- A notice discarded for want of room (R107). -/
def outboxDropped : State → State := onErrors fun e => { e with outboxDrops := satSucc e.outboxDrops }

/-- A discarded host frame (R174, R175). -/
def hostFrameCounted : State → State := onErrors fun e => { e with hostFrames := satSucc e.hostFrames }

/-- Changes the lane counts alone, at a station that has them (R164, R169). -/
def onCounts (f : LaneCounts → LaneCounts) (s : State) : State :=
  if hasRight s then s.onBeams fun b => { b with counts := f b.counts } else s

/-! ## Views that stand for the output pins (log entry 20) -/

/-- What a lane lamp shows (R150). -/
inductive Lamp where
  | dark
  | red
  | amber
  deriving DecidableEq, Repr

/-- The lamp of a lane (R150); dark while the part is held in reset (R187). -/
def State.lamp (s : State) (l : LaneSide) : Lamp :=
  if heldInReset s then .dark
  else if bothFault s || s.line.state = .CLASHED then .amber
  else if !hasLane s l then .dark
  else
    match laneState s l with
    | .ARMED => .dark
    | .SOUNDING _ => .red
    | .HUSHED lit => if lit then .red else .dark

/-- The coil that is driven: that of the half-sweep in progress (R1). -/
def State.coilDriven (s : State) : Option Coil := if heldInReset s then none else s.field.window.map Window.half

/-- Whether the beam emitters are driven (R164, R165). -/
def State.emittersOn (s : State) : Bool := hasRight s && !heldInReset s

/-- Whether the pedestal may drive the line at all: in SYNCED, and not while the part is held in reset (R84). -/
def State.mayDrive (s : State) : Bool := !heldInReset s && s.line.state = .SYNCED

/-- Whether the line driver is in use for a start mark or for the bits of a notice (R84, R88, R111 to R113). -/
def State.driverInUse (s : State) : Bool := s.mayDrive && (s.line.startMark = .sending || s.notices.inFlight = .PLACING)

/-- Whether the own request bit is driven in the request field of this round (R96). -/
def State.requestBit (s : State) : Bool := s.mayDrive && s.access.requests = some true

/-- The levels of `times` bit times in which the driver is released. -/
def released (times : Nat) : List Bool := List.replicate times true

/-- What the driver gives in the bit times of a start mark, true recessive (R84, R85, R88). -/
def State.markDriven (s : State) : List Bool :=
  if s.mayDrive && s.line.startMark = .sending then markLevels else released 16

/-- What the driver gives in the bit times of the own station slot (R84, R92). -/
def State.slotDriven (s : State) : List Bool := if s.mayDrive then slotLevels s.line.slotWord else released 16

/-- What the driver gives in the bit times of the request field (R84, R96). -/
def State.requestDriven (s : State) : List Bool :=
  if s.requestBit then requestLevels s.station else released requestBitTimes

/-- The bits a contender is placing in a slot: its in-flight head under its class and number, until a bit is read back wrong
(R112, R113). -/
def placedBits (s : State) : Option (List Bool) :=
  if s.notices.inFlight = .PLACING then
    s.notices.outbox.head?.map fun n => noticeBits s.line.noticeClass s.supply.straps.station n.body
  else none

/-- What the driver gives in the bit times of the notice slot now running, as long as no bit placed is read back wrong
(R84, R102, R112, R113). -/
def State.noticeDriven (s : State) : List Bool :=
  match placedBits s with
  | none => released noticeBitTimes
  | some placed => if s.mayDrive then placeData noticeBitTimes placed else released noticeBitTimes

/-- The frame on the host transmit line (R175, R184). -/
def State.frameSent (s : State) : Option Frame :=
  match s.host.transmitter with
  | .IDLE => none
  | .SENDING_RESPONSE => s.host.outstanding.map Response.frame
  | .SENDING_REPORT => s.host.ring.head?.map reportFrame

end Sys2Proof.Machine
end

