-- ==== Sys2Proof/Machine/Ops.lean ====
section
/-! DEFINITION. The shared operations of the host port's ring, the sounder, the lane machines, the peer code records, cadence and
dormant timer, the notice queue and the excuse list. -/

namespace Sys2Proof.Machine

/-! ## Commands and the hold (R187) -/

/-- What a command other than a POWER-ON does: while the part is held in reset nothing is taken (R187). -/
def whileRunning (f : State → State) (s : State) : Host.Outcome State Fault Refusal :=
  .next (if heldInReset s then s else f s)

/-! ## Report ring (R181, R184) -/

/-- Delivery is tested: with STREAM on, the transmitter IDLE, no response outstanding and a record in the ring, the oldest
record goes into transmission (R184). -/
def startDelivery (s : State) : State :=
  if s.host.streaming && s.host.transmitter = .IDLE && s.host.outstanding.isNone && !s.host.ring.isEmpty then
    s.onHost fun h => { h with transmitter := .SENDING_REPORT }
  else s

/-- A block makes a record: it enters the ring last with the own round count, or is dropped and counted (R181). -/
def makeRecord (body : ReportBody) (s : State) : State :=
  if s.host.ring.length < Config.ringCapacity then
    startDelivery (s.onHost fun h => { h with ring := h.ring ++ [{ stamp := s.now, body := body }] })
  else
    onErrors (fun e => { e with reportLosses := satSucc e.reportLosses }) s

/-! ## Sounder (chapter 9) -/

/-- The phase word of a stored frequency, round(F × 4.096); none for no tone (R160). -/
def phaseWord (f : Nat) : Option (BitVec 16) := if f = 0 then none else some (BitVec.ofNat 16 ((f * 1024 + 125) / 250))

/-- The amplitudes of R161 for effective levels 0, -2, ... -46 dB. -/
def amplitudeTable : List Nat :=
  [1024, 813, 646, 513, 408, 324, 257, 204, 162, 129, 102, 81, 65, 51, 41, 32, 26, 20, 16, 13, 10, 8, 6, 5]

/-- The amplitude of an entry so many dB below 0, at a volume (R161). -/
def amplitudeAt (below volume : Nat) : Nat := amplitudeTable.getD ((below + 2 * volume) / 2) 0

/-- The entry as it is latched at its start: the phase words of its stored tones, whatever the level, and the amplitude, or REST
(R158, R160, R161). -/
def latchOf (volume : Nat) (e : CadenceEntry) : Latched :=
  { nA := phaseWord e.toneA, nB := phaseWord e.toneB, amplitude := e.level.map fun below => amplitudeAt below volume }

/-- The entry start at an index with a duration: latched, both accumulators 0 (R158). -/
def latchEntry (volume : Nat) (index : Fin 16) (u : Sounder) : Sounder :=
  { u with
    position := index
    samplesLeft := u.table[index].duration * Config.samplesPerUnit
    latched := some (latchOf volume u.table[index])
    accA := 0
    accB := 0 }

/-- An entry start (R158): a playing entry is latched; an end marker goes to entry 0 at once; an end marker at entry 0 is looked
at again 160 samples later, with the accumulators at 0 meanwhile (DESIGN CHOICE, log entry 36). -/
def entryStart (volume : Nat) (index : Fin 16) (u : Sounder) : Sounder :=
  if u.table[index].duration ≠ 0 then latchEntry volume index u
  else if u.table[(0 : Fin 16)].duration ≠ 0 then latchEntry volume 0 u
  else { u with position := 0, samplesLeft := Config.samplesPerUnit, latched := none, accA := 0, accB := 0 }

/-- The sounder starts at entry 0 (R157). -/
def soundStart (s : State) : State := s.onSounder fun u => entryStart s.params.volume 0 { u with playing := true }

/-- The sounder stops: IDLE, play position and latched entry cleared (R157). The accumulators are 0 at once: by R163 at a reset and
at DORMANT entry, and at any other stop a DESIGN CHOICE (log entry 36). -/
def soundStop (s : State) : State :=
  s.onSounder fun u => { u with playing := false, position := 0, samplesLeft := 0, latched := none, accA := 0, accB := 0 }

/-! ## Lane machines (chapter 8) -/

/-- Puts a lane machine into a state and nothing else. -/
def putLane (l : LaneSide) (st : LaneState) (s : State) : State :=
  s.onLanes fun u => match l with
    | .left => { u with left := st }
    | .right => { u with right := st }

/-- Puts a lane machine into a state; the sounder is told when the number of SOUNDING machines leaves 0 or returns to it
(R151, R157). -/
def setLane (l : LaneSide) (st : LaneState) (s : State) : State :=
  let s' := putLane l st s
  if !anySounding s && anySounding s' then soundStart s'
  else if anySounding s && !anySounding s' then soundStop s'
  else s'

/-- The re-arming test: a HUSHED machine becomes ARMED when its lane is not occupied and the confirmed peer code is neither
SOUND nor HUSH-OCC (R148). -/
def rearm (l : LaneSide) (s : State) : State :=
  if hasLane s l && isHushed (laneState s l) && !occupied s l && !blocksRearm (peerRecord s l).confirmed then
    setLane l .ARMED s
  else s

/-- The re-arming test of both machines, left before right (R139, R148). -/
def rearmBoth (s : State) : State := rearm .right (rearm .left s)

/-- Entry of a machine into SOUNDING: the timer is set to sound_limit and a LANE report is made (R142, R143, R152). -/
def enterSounding (l : LaneSide) (cause : LaneCause) (s : State) : State :=
  makeRecord (.LANE (laneNumber s l) true cause) (setLane l (.SOUNDING s.params.soundLimit) s)

/-- A hushing event at one machine: a SOUNDING machine becomes HUSHED with its report and is tested for re-arming in the same
event (R144, R146, R147, R148). -/
def hushLane (l : LaneSide) (cause : LaneCause) (s : State) : State :=
  if sounds s l then
    rearm l (makeRecord (.LANE (laneNumber s l) false cause) (setLane l (.HUSHED true) s))
  else s

/-- A hushing event at both machines, left before right (R146, R147). -/
def hushBoth (cause : LaneCause) (s : State) : State := hushLane .right cause (hushLane .left cause s)

/-- An own alarm told to a lane machine, with its answer: held or not (R70, R142). -/
def ownAlarm (l : LaneSide) (s : State) : State × Bool :=
  match laneState s l with
  | .ARMED => (enterSounding l .OWN s, false)
  | .SOUNDING _ => (setLane l (.SOUNDING s.params.soundLimit) s, false)
  | .HUSHED _ => (s, true)

/-- One round start of a machine's sound timer: it decreases while SOUNDING, and at 0 the machine is hushed by LIMIT (R144). -/
def soundTick (l : LaneSide) (s : State) : State :=
  if hasLane s l then
    match laneState s l with
    | .SOUNDING t => if t ≤ 1 then hushLane l .LIMIT s else putLane l (.SOUNDING (t - 1)) s
    | .ARMED => s
    | .HUSHED _ => s
  else s

/-- Both machines are set ARMED without reports or tests, and the sounder is told that no machine sounds (R154, R163). -/
def armLanes (s : State) : State := soundStop (s.onLanes fun u => { u with left := .ARMED, right := .ARMED })

/-! ## Cadence and dormant timer (R132, R133, R191) -/

/-- A CALM pedestal becomes BRISK with quiet-round count 0 (R133). -/
def briskEntry (s : State) : State :=
  s.onAccess fun a => if a.cadence = .CALM then { a with cadence := .BRISK, quietRounds := 0 } else a

/-- A track creation or an own beam break at the access unit: the quiet-round count returns to 0, and a CALM pedestal becomes
BRISK (R132, R133). -/
def stirAccess (s : State) : State := s.onAccess fun a => { a with cadence := .BRISK, quietRounds := 0 }

/-- Both parts of the dormant timer are set to 0, which clears a pending entry (R191). -/
def dormantTimerZero (s : State) : State :=
  s.onSupply fun u => { u with dormantRounds := 0, quietMinutes := 0, pendingEntry := false }

/-! ## Peer code records (R95, R143) -/

/-- Replaces the peer code record of a lane. -/
def putPeer (l : LaneSide) (r : PeerRecord) (s : State) : State :=
  s.onLine fun u => match l with
    | .left => { u with peerLeft := r }
    | .right => { u with peerRight := r }

/-- A lane machine takes a new confirmed peer code; `old` is the code confirmed before, and the record already holds the new
one (R143). -/
def takePeerCode (l : LaneSide) (old new : PeerCode) (s : State) : State :=
  match laneState s l with
  | .ARMED => if new = .code .SOUND then enterSounding l .PEER s else s
  | .SOUNDING _ => if isHushCode new && !isHushCode old then hushLane l .PEER s else s
  | .HUSHED _ => rearm l s

/-- An observation of the other flank's code is applied to a peer code record (R95); a change of the confirmed code goes to the
lane unit, and to the dormant timer unless it is to QUIET or ABSENT (R191). -/
def observe (l : LaneSide) (seen : PeerCode) (s : State) : State :=
  let r := peerRecord s l
  let confirmed := if r.lastSeen = some seen then seen else r.confirmed
  let s1 := putPeer l { confirmed := confirmed, lastSeen := some seen } s
  if confirmed = r.confirmed then s1
  else takePeerCode l r.confirmed confirmed (if quietCode confirmed then s1 else dormantTimerZero s1)

/-- A peer code record is set to confirmed ABSENT with no last seen code; a change goes to the lane unit (R91, R99, R101, R103,
R143). -/
def clearPeer (l : LaneSide) (s : State) : State :=
  let old := (peerRecord s l).confirmed
  let s1 := putPeer l { confirmed := .ABSENT, lastSeen := none } s
  if hasLane s l && old ≠ .ABSENT then takePeerCode l old .ABSENT s1 else s1

/-- Both peer code records are cleared, left before right. -/
def clearPeers (s : State) : State := clearPeer .right (clearPeer .left s)

/-! ## Notice queue (R106 to R108) -/

/-- Whether a notice is of kind SIGHTING. -/
def isSighting (n : Notice) : Bool :=
  match n.body with
  | .SIGHTING _ => true
  | .VERDICT _ => false
  | .EXCUSE _ => false

/-- The notices that can be displaced or go stale: all but the in-flight head (R106). -/
def looseNotices (q : NoticeQueue) : List Notice := if q.inFlight = .NONE then q.outbox else q.outbox.tail

/-- The in-flight head, if any (R106). -/
def boundNotices (q : NoticeQueue) : List Notice := if q.inFlight = .NONE then [] else q.outbox.take 1

/-- A new notice is queued last; with 8 notices held the oldest SIGHTING not in flight gives way, or the new notice is discarded
and counted (R107). -/
def queueNotice (body : NoticeBody) (s : State) : State :=
  let n : Notice := { body := body, built := s.now }
  let q := s.notices
  if q.outbox.length < Config.outboxCapacity then s.onNotices fun q => { q with outbox := q.outbox ++ [n] }
  else if (looseNotices q).any isSighting then
    s.onNotices fun q => { q with outbox := boundNotices q ++ (looseNotices q).eraseP isSighting ++ [n] }
  else outboxDropped s

/-- Stale SIGHTING notices are removed in outbox order (R108). -/
def dropStale (s : State) : State :=
  s.onNotices fun q =>
    { q with
      outbox := boundNotices q ++
        (looseNotices q).filter fun n => !(isSighting n && Config.staleRounds ≤ roundsSince s.now n.built) }

/-! ## Excuse list (R76 to R80) -/

/-- Places an entry after every entry with its life or less (R76, R77). -/
def insertByLife (e : ExcuseEntry) : List ExcuseEntry → List ExcuseEntry
  | [] => [e]
  | x :: xs => if x.life ≤ e.life then x :: insertByLife e xs else e :: x :: xs

/-- The excuse list in order of soonest expiry, among equal lives earliest added first (R76). -/
def excuseOrder (stored : List ExcuseEntry) : List ExcuseEntry := stored.foldl (fun l e => insertByLife e l) []

/-- The stored list without the first entry of the order of R76 (R78). -/
def dropSoonest (stored : List ExcuseEntry) : List ExcuseEntry :=
  match excuseOrder stored with
  | [] => []
  | first :: _ => stored.eraseP fun e => e.item = first.item

/-- Whether an item is in the excuse list. -/
def excused (s : State) (item : ItemCode) : Bool := s.verdict.excuses.any fun e => e.item = item

/-- A removal (R79). -/
def removeExcuse (item : ItemCode) (s : State) : State :=
  s.onVerdict fun v => { v with excuses := v.excuses.filter fun e => e.item ≠ item }

/-- An add or refresh with life 1..255 (R77, R78). -/
def addExcuse (item : ItemCode) (life : Nat) (s : State) : State :=
  s.onVerdict fun v =>
    if v.excuses.any fun e => e.item = item then
      { v with excuses := v.excuses.map fun e => if e.item = item then { e with life := life } else e }
    else if v.excuses.length < Config.excuseCapacity then { v with excuses := v.excuses ++ [{ item := item, life := life }] }
    else { v with excuses := dropSoonest v.excuses ++ [{ item := item, life := life }] }

/-- An add, or with life 0 a removal (R77, R79). -/
def applyExcuse (item : ItemCode) (life : Nat) (s : State) : State :=
  if life = 0 then removeExcuse item s else addExcuse item life s

/-- A minute boundary: the counter returns to 0, every life decreases by one, and entries at 0 are removed (R80). -/
def minuteTurn (s : State) : State :=
  s.onVerdict fun v =>
    { v with
      minute := 0
      excuses := (v.excuses.map fun e => { e with life := e.life - 1 }).filter fun e => e.life ≠ 0 }

end Sys2Proof.Machine
end

