-- ==== Sys2Proof/Machine/TrackOps.lean ====
section
/-! DEFINITION. The shared operations of the track table, the sighting cache, the passage judgement and the verdicts
(chapters 2 to 4). -/

namespace Sys2Proof.Machine

/-! ## The table -/

/-- The record of an item, if there is one. -/
def findTrack (s : State) (item : ItemCode) : Option Track := s.track.table.find? fun t => t.item = item

/-- Changes the record of an item and nothing else. -/
def updTrack (item : ItemCode) (f : Track → Track) (s : State) : State :=
  s.onTrack fun u => { u with table := u.table.map fun t => if t.item = item then f t else t }

/-- The strength of a track on a coil. -/
def strengthOn (c : Coil) (t : Track) : Option Nat :=
  match c with
  | .H => t.sH
  | .S => t.sS

/-- Replaces the strength of a track on a coil. -/
def putStrength (c : Coil) (x : Option Nat) (t : Track) : Track :=
  match c with
  | .H => { t with sH := x }
  | .S => { t with sS := x }

/-- The smoothed strength after a read of strength v (R23). -/
def smooth (before : Option Nat) (v : Strength) : Option Nat :=
  match before with
  | none => if v = 0 then none else some (4 * v.toNat)
  | some x => some ((x : Int) + Int.tdiv (4 * (v.toNat : Int) - x) 4).toNat

/-- The smoothed strength after a decay (R27). -/
def decayed (step : Nat) (before : Option Nat) : Option Nat :=
  match before with
  | none => none
  | some x => if step < x then some (x - step) else none

/-- The window mark after a read (R22). -/
def markRead (v : Strength) (c : Coil) : Mark → Mark
  | .none => .read v c
  | .decayed => .read v c
  | .read best coil => if best < v then .read v c else .read best coil

/-- The window mark after a decay (R26). -/
def markDecayed : Mark → Mark
  | .none => .decayed
  | .decayed => .decayed
  | .read best coil => .read best coil

/-- A record after a kept read (R22). -/
def readTrack (now : Round) (loan : LoanWord) (c : Coil) (v : Strength) (t : Track) : Track :=
  { putStrength c (smooth (strengthOn c t) v) t with
    loan := loan
    lastRead := now
    reads := satSucc t.reads
    mark := markRead v c t.mark }

/-- A record after a completion that decays it: only a present strength decays and marks (R26, R27). -/
def decayTrack (step : Nat) (c : Coil) (t : Track) : Track :=
  match strengthOn c t with
  | none => t
  | some x => { putStrength c (decayed step (some x)) t with mark := markDecayed t.mark }

/-- The side of a new track (R21). -/
def newSide (s : State) : Side :=
  match hasLeft s, hasRight s with
  | true, true => .UNSURE
  | false, true => .RIGHT
  | true, false => .LEFT
  | false, false => .UNSURE

/-- The record that a read creates (R20, R24, R25). -/
def newTrack (s : State) (item : ItemCode) (loan : LoanWord) (c : Coil) (v : Strength) : Track :=
  let cached := s.track.cache.find? fun e => e.item = item
  { item := item
    loan := loan
    firstRound := s.now
    lastRead := s.now
    reads := 1
    sH := if c = .H then smooth none v else none
    sS := if c = .S then smooth none v else none
    lastD := none
    startSide := .notSet
    phase := .OPEN
    side := newSide s
    pL := cached.bind CacheEntry.left
    pR := cached.bind CacheEntry.right
    verdict := none
    peerAlarm := none
    mark := .read v c }

/-! ## Judgement (chapter 3) -/

/-- The balance D = S - H, an absent strength counting as 0 (R45). -/
def balance (t : Track) : Int := (t.sS.getD 0 : Int) - (t.sH.getD 0 : Int)

/-- The start side that a first evaluation sets in two-coil mode (R46). -/
def startSideOf (tSide : Nat) (d : Int) : StartSide :=
  if d ≤ -(tSide : Int) then .HALL else if (tSide : Int) ≤ d then .STREET else .MIDDLE

/-- The phase after one two-coil evaluation: the first row that holds (R48). -/
def phaseMove (tCross : Nat) (start : StartSide) (d : Int) : Phase → Phase
  | .OPEN =>
    if (tCross : Int) ≤ d ∧ start ≠ .STREET then .OUT
    else if d ≤ -(tCross : Int) ∧ start ≠ .HALL then .IN
    else .OPEN
  | .IN => if (tCross : Int) ≤ d then .OUT else .IN
  | .OUT => if d ≤ -(tCross : Int) then .BACK else .OUT
  | .BACK => .BACK

/-- Whether a phase is OPEN or IN. -/
def beforeOut (p : Phase) : Bool := p = .OPEN || p = .IN

/-- The side after the side decision of a station with two lanes (R58). -/
def decideSide (s : State) (t : Track) : Side :=
  let diff : Int := (freshStrength s t.pR : Int) - (freshStrength s t.pL : Int)
  if !twoLanes s then t.side
  else if (s.params.mSide : Int) ≤ diff then .RIGHT
  else if diff ≤ -(s.params.mSide : Int) then .LEFT
  else t.side

/-- What one evaluation finds: the record after steps 1 to 4 of R44, whether a tag entry is due, and the direction of a verdict
that fell due. -/
structure Judgement where
  track : Track
  tagEntry : Bool
  due : Option Direction
  deriving DecidableEq, Repr

/-- Steps 1 to 4 of R44 in two-coil mode (R45, R46, R48, R51, R58). -/
def judgeTwoCoil (s : State) (t : Track) : Judgement :=
  let d := balance t
  let start := if t.startSide = .notSet then startSideOf s.params.tSide d else t.startSide
  let phase := phaseMove s.params.tCross start d t.phase
  { track := { t with lastD := some d, startSide := start, phase := phase, side := decideSide s t }
    tagEntry := t.phase = .OPEN && phase = .IN && (t.side = .RIGHT || t.side = .UNSURE)
    due := if beforeOut t.phase && phase = .OUT && t.verdict.isNone then some .OUT else none }

/-- Whether a track takes its verdict in single-coil mode (R54). -/
def singleDue (s : State) (working : Coil) (t : Track) : Bool :=
  t.verdict.isNone && match strengthOn working t with
    | none => false
    | some x => s.params.tSingle ≤ x

/-- Steps 1 to 4 of R44 in single-coil mode (R45, R53, R54, R58). -/
def judgeSingle (s : State) (working : Coil) (t : Track) : Judgement :=
  let due := singleDue s working t
  { track :=
      { t with
        lastD := some (balance t)
        startSide := if t.startSide = .notSet then .NONE else t.startSide
        phase := if due && beforeOut t.phase then .OUT else t.phase
        side := decideSide s t }
    tagEntry := false
    due := if due then some .UNKNOWN else none }

/-! ## Verdicts (chapter 4) -/

/-- Whether the loan test fails (R67). -/
def loanTestFails (mask : BitVec 8) (loan : LoanWord) : Bool := (~~~loan) &&& mask ≠ 0

/-- The outcome of a verdict request (R68). -/
def outcomeOf (s : State) (item : ItemCode) (loan : LoanWord) : Outcome :=
  if loanTestFails s.params.loanMask loan then (if excused s item then .EXCUSED else .ALARM) else .PASS

/-- The side of one of the own lanes by its number. -/
def sideOfLane (s : State) (lane : Nat) : Side := if hasRight s && lane = s.station then .RIGHT else .LEFT

/-- The side after settling at verdict time (R60, R62). -/
def settledSide (s : State) (t : Track) : Side :=
  if t.side ≠ .UNSURE || !twoLanes s then t.side
  else
    match t.peerAlarm with
    | some lane => sideOfLane s lane
    | none =>
      match recent s .left, recent s .right with
      | true, false => .LEFT
      | false, true => .RIGHT
      | true, true => .UNSURE
      | false, false => .UNSURE

/-- The lanes a verdict acts on, in rising order (R63). -/
def lanesOf (s : State) (side : Side) : List LaneSide :=
  [LaneSide.left, LaneSide.right].filter fun l =>
    hasLane s l && (match side, l with
      | .LEFT, .left => true
      | .RIGHT, .right => true
      | .UNSURE, _ => true
      | .LEFT, .right => false
      | .RIGHT, .left => false)

/-- The lane a report names for a side, none for UNSURE (R69, R73). -/
def reportLane (s : State) : Side → Option Nat
  | .LEFT => some (laneNumber s .left)
  | .RIGHT => some (laneNumber s .right)
  | .UNSURE => none

/-- An own alarm told to several machines in turn; held when at least one answers held (R70). -/
def ownAlarms : List LaneSide → State → State × Bool
  | [], s => (s, false)
  | l :: ls, s =>
    let first := ownAlarm l s
    let rest := ownAlarms ls first.1
    (rest.1, first.2 || rest.2)

/-- A verdict is counted in the lane counted, if there is one: one tag alarm or one tag pass (R63, R71). -/
def countVerdict (o : Outcome) (side : Side) (s : State) : State :=
  if side = .LEFT then s
  else
    onCounts (fun c => match o with
      | .ALARM => { c with tagAlarms := c.tagAlarms + 1 }
      | .PASS => { c with tagPasses := c.tagPasses + 1 }
      | .EXCUSED => { c with tagPasses := c.tagPasses + 1 }) s

/-- The VERDICT notice of an ALARM, one entry per lane (R72). The right lane of station 15 is sent as 15 (log entry 29). -/
def alarmNotice (s : State) (item : ItemCode) (lanes : List LaneSide) : NoticeBody :=
  .VERDICT (lanes.map fun l => { item := item, lane := BitVec.ofNat 4 (laneNumber s l), verdict := 1 })

/-- The effects of an outcome on lane machines, lane counts and notice queue, with whether it was held (R70 to R72). -/
def verdictEffects (o : Outcome) (item : ItemCode) (side : Side) (s : State) : State × Bool :=
  let lanes := lanesOf s side
  match o with
  | .ALARM =>
    let told := ownAlarms lanes s
    let counted := countVerdict .ALARM side told.1
    (if lanes.isEmpty then counted else queueNotice (alarmNotice s item lanes) counted, told.2)
  | .PASS => (countVerdict .PASS side s, false)
  | .EXCUSED => (countVerdict .EXCUSED side s, false)

/-- A verdict falls due for an item: the side is settled, the request answered, its effects carried out and its record written,
all in one event (R50, R60, R66, R69). -/
def giveVerdict (item : ItemCode) (direction : Direction) (s : State) : State :=
  match findTrack s item with
  | none => s
  | some t =>
    let side := settledSide s t
    let s1 := if side = t.side then s else rearmBoth (updTrack item (fun t => { t with side := side }) s)
    let outcome := outcomeOf s1 item t.loan
    let acted := verdictEffects outcome item side s1
    updTrack item
      (fun t =>
        { t with
          verdict := some
            { outcome := outcome, direction := direction, lane := reportLane s side, loanTested := t.loan
              held := acted.2 } })
      acted.1

/-- A tag entry is counted in the own right lane (R51, R169). -/
def countTagEntry : State → State := onCounts fun c => { c with tagEntries := c.tagEntries + 1 }

/-- One track is evaluated whole (R44). -/
def evaluate (item : ItemCode) (s : State) : State :=
  match findTrack s item with
  | none => s
  | some t =>
    match coilMode s with
    | .noCoil => s
    | .twoCoil => settleJudgement t (judgeTwoCoil s t) s
    | .single working => settleJudgement t (judgeSingle s working t) s
where
  /-- Writes what an evaluation found, and gives the verdict that fell due (R44 steps 3 to 5, R148). -/
  settleJudgement (before : Track) (j : Judgement) (s : State) : State :=
    let s1 := if j.tagEntry then countTagEntry s else s
    let s2 := updTrack before.item (fun _ => j.track) s1
    let s3 := if j.track.side = before.side then s2 else rearmBoth s2
    match j.due with
    | none => s3
    | some d => giveVerdict before.item d s3

/-! ## Expiry and eviction (R33, R35, R36, R56) -/

/-- The fade rule (R56). -/
def fades (s : State) (t : Track) : Bool :=
  t.verdict.isNone && beforeOut t.phase && t.startSide ≠ .STREET && !oneFault s &&
    match t.lastD with
    | none => false
    | some d => (s.params.tSide : Int) ≤ d

/-- The direction of a PASSAGE report, by the first line of R52 that holds. -/
def reportDirection (t : Track) : ReportDirection :=
  let given := t.verdict.map VerdictRecord.direction
  if given = some .FADE_OUT then .FADE_OUT
  else if t.phase = .BACK then .BACK
  else if given = some .UNKNOWN then .UNKNOWN
  else if t.phase = .IN then .IN
  else .OUT

/-- The PASSAGE report of a record (R73). -/
def passageReport (s : State) (t : Track) : ReportBody :=
  match t.verdict with
  | none =>
    .PASSAGE t.item t.loan (reportLane s t.side) (reportDirection t) none false t.peerAlarm.isSome (t.lastRead - t.firstRound)
  | some v =>
    .PASSAGE t.item v.loanTested v.lane (reportDirection t) (some v.outcome) v.held t.peerAlarm.isSome
      (t.lastRead - t.firstRound)

/-- Step 2 of the expiry treatment: a report if the phase is not OPEN or there is a verdict (R35). -/
def reportPassage (item : ItemCode) (s : State) : State :=
  match findTrack s item with
  | none => s
  | some t => if t.phase ≠ .OPEN || t.verdict.isSome then makeRecord (passageReport s t) s else s

/-- Step 3 of the expiry treatment: the record leaves the table, and the lanes are tested for re-arming (R35, R37, R148). -/
def removeTrack (item : ItemCode) (s : State) : State :=
  rearmBoth (s.onTrack fun u => { u with table := u.table.filter fun t => t.item ≠ item })

/-- The expiry treatment: fade rule, report, removal (R35). -/
def expireTrack (item : ItemCode) (s : State) : State :=
  match findTrack s item with
  | none => s
  | some t => removeTrack item (reportPassage item (if fades s t then giveVerdict item .FADE_OUT s else s))

/-- Every track whose age exceeds linger expires, one after another in creation order (R36). -/
def expireTracks (s : State) : State :=
  ((s.track.table.filter (overdue s)).map Track.item).foldl (fun s item => expireTrack item s) s

/-- The record to evict: the oldest last-read round, earliest created among equals (R33). -/
def oldestTrack (now : Round) : List Track → Option Track
  | [] => none
  | t :: ts =>
    match oldestTrack now ts with
    | none => some t
    | some u => if roundsSince now t.lastRead < roundsSince now u.lastRead then some u else some t

/-- One record is evicted with the full expiry treatment, and counted (R33). -/
def evict (s : State) : State :=
  match oldestTrack s.now s.track.table with
  | none => s
  | some t => evictionCounted (expireTrack t.item s)

/-! ## Reads (R22, R24) -/

/-- Adds the record a read creates, with its cache entry taken over (R24, R25, R132, R133, R191). -/
def createTrack (item : ItemCode) (loan : LoanWord) (c : Coil) (v : Strength) (s : State) : State :=
  let s1 := s.onTrack fun u =>
    { u with
      table := u.table ++ [newTrack s item loan c v]
      cache := u.cache.filter fun e => e.item ≠ item }
  dormantTimerZero (stirAccess s1)

/-- A kept read reaches the track unit (R22, R24, R33). -/
def takeRead (item : ItemCode) (loan : LoanWord) (c : Coil) (v : Strength) (s : State) : State :=
  if (findTrack s item).isSome then updTrack item (readTrack s.now loan c v) s
  else createTrack item loan c v (if s.track.table.length < Config.trackCapacity then s else evict s)

/-! ## Sighting cache (R30, R31) -/

/-- The cache is aged: entries whose two parts are both older than peer_age are discarded (R30). -/
def ageCache (s : State) : State :=
  s.onTrack fun u => { u with cache := u.cache.filter fun e => !(partOld s e.left && partOld s e.right) }

/-- Puts a peer strength on one side of a record (R31). -/
def putPeerStrength (l : LaneSide) (p : PeerStrength) (t : Track) : Track :=
  match l with
  | .left => { t with pL := some p }
  | .right => { t with pR := some p }

/-- Puts a peer strength on one side of a cache entry (R31). -/
def putPart (l : LaneSide) (p : PeerStrength) (e : CacheEntry) : CacheEntry :=
  match l with
  | .left => { e with left := some p }
  | .right => { e with right := some p }

/-- One sighting from a neighbour (R31). -/
def takeSighting (l : LaneSide) (e : Sighting) (s : State) : State :=
  let p : PeerStrength := { strength := e.best, coil := e.coil, received := s.now }
  if (findTrack s e.item).isSome then updTrack e.item (putPeerStrength l p) s
  else
    s.onTrack fun u =>
      if u.cache.any fun c => c.item = e.item then
        { u with cache := u.cache.map fun c => if c.item = e.item then putPart l p c else c }
      else
        { u with
          cache := (if u.cache.length < Config.cacheCapacity then u.cache else u.cache.tail) ++
            [putPart l p { item := e.item, left := none, right := none }] }

/-- Whether a received lane number is that of one of the station's lanes: s-1 or s. 15 names no lane, at station 15 with END
clear too (R74; log entry 29). -/
def namesOwnLane (s : State) (lane : Nat) : Bool :=
  lane ≠ 15 && ((hasLeft s && lane = laneNumber s .left) || (hasRight s && lane = laneNumber s .right))

/-- One entry of a received VERDICT notice at the track unit (R74). -/
def takeVerdictEntry (e : VerdictEntry) (s : State) : State :=
  if e.verdict = 1 && namesOwnLane s e.lane.toNat then
    updTrack e.item (fun t => { t with peerAlarm := some e.lane.toNat }) s
  else s

end Sys2Proof.Machine
end

