-- ==== Sys2Proof/Machine/FieldOps.lean ====
section
/-! DEFINITION. The shared operations of field windows: drive checks, half-sweeps, completions, window ends and window starts
(chapters 1 and 7). -/

namespace Sys2Proof.Machine

/-! ## Coils (R4 to R6) -/

/-- Puts a coil into a state. -/
def putCoil (c : Coil) (st : CoilState) (s : State) : State :=
  s.onField fun f => match c with
    | .H => { f with coilH := st }
    | .S => { f with coilS := st }

/-- Whether the drive current of a coil lies in its band. -/
def inBand (sense : DriveSense) : Coil → Bool
  | .H => sense.hInBand
  | .S => sense.sInBand

/-- The start of a half-sweep on a coil: skipped, or a drive check or retry; the answer says whether the half-sweep goes on to
its work (R4, R5, R6). -/
def driveCheck (c : Coil) (sense : DriveSense) (s : State) : State × Bool :=
  match coilState s c with
  | .OK =>
    if inBand sense c then (s, true)
    else (makeRecord (.FAULT (.coil c) .FAILED) (putCoil c (.FAULT s.now) s), false)
  | .FAULT _ =>
    if retryDue s c then
      if inBand sense c then (makeRecord (.FAULT (.coil c) .CLEARED) (putCoil c .OK s), true)
      else (putCoil c (.FAULT s.now) s, false)
    else (s, false)

/-! ## Half-sweeps (R8, R10, R11, R16) -/

/-- The reply windows that a CALL opens, W = 2^q with q = floor((qx4 + 2) / 4) (R8). -/
def callWindows (qx4 : Nat) : Nat := 2 ^ ((qx4 + 2) / 4)

/-- Places a track after every track with its last-read round or an older one (R11). -/
def insertByAge (now : Round) (t : Track) : List Track → List Track
  | [] => [t]
  | x :: xs =>
    if roundsSince now t.lastRead ≤ roundsSince now x.lastRead then x :: insertByAge now t xs else t :: x :: xs

/-- The called list of a follow half-sweep: the tracks with verdict NONE, oldest last-read round first, then earliest created,
at most 16 (R11). -/
def calledList (s : State) : List ItemCode :=
  ((((s.track.table.filter fun t => t.verdict.isNone).foldl (fun l t => insertByAge s.now t l) []).take
    Config.followCalls).map Track.item)

/-- The work of a half-sweep begins: CALL, or SELECT to the first of the called list (R8, R11). -/
def beginSweep (kind : WindowKind) (c : Coil) (s : State) : State :=
  let sweep : Sweep := match kind with
    | .SEARCH => .search { toClose := callWindows s.field.qx4, closed := 0, collided := 0, empty := 0, read := [] }
    | .FOLLOW => .follow { waiting := calledList s, called := [], answered := [] }
  s.onField fun f => { f with window := some { half := c, sweep := sweep } }

/-- Whether a half-sweep has no work: a follow half-sweep with an empty called list (R11). -/
def sweepIdle : Sweep → Bool
  | .search _ => false
  | .follow r => r.waiting.isEmpty

/-- The kind of a sweep. -/
def sweepKind : Sweep → WindowKind
  | .search _ => .SEARCH
  | .follow _ => .FOLLOW

/-- The window figure after a search half-sweep: qx4 + C - floor(E / 2), limited to 0..20 (R10). -/
def figureAfter (qx4 collided empty : Nat) : Nat := (clampInt 0 20 ((qx4 : Int) + collided - (empty / 2 : Nat))).toNat

/-- Decay on a coil of every record that `picked` names (R26, R27). -/
def decayWhere (c : Coil) (picked : Track → Bool) (s : State) : State :=
  s.onTrack fun u =>
    { u with table := u.table.map fun t => if picked t then decayTrack s.params.decayStep c t else t }

/-- The quiet-round count returns to 0 at a search completion that is not all-empty (R16, R132); while CALM it is 0. -/
def quietRoundsZero (s : State) : State := s.onAccess fun a => { a with quietRounds := 0 }

/-- The normal end of a half-sweep: window figure, completion, decay, and the all-empty mark to the access unit
(R2, R10, R16, R26). -/
def completeSweep (c : Coil) (sweep : Sweep) (s : State) : State :=
  match sweep with
  | .search r =>
    let s1 := s.onField fun f => { f with qx4 := figureAfter f.qx4 r.collided r.empty }
    let s2 := decayWhere c (fun t => !r.read.contains t.item) s1
    if r.closed ≠ 0 && r.empty = r.closed then s2 else quietRoundsZero s2
  | .follow r => decayWhere c (fun t => r.called.contains t.item && !r.answered.contains t.item) s

/-! ## Window end (R17, R38, R109) -/

/-- The entry a track marked read gives to the window's SIGHTING list (R38, R109). -/
def sightingOf (t : Track) : Option Sighting :=
  match t.mark with
  | .none => none
  | .decayed => none
  | .read best coil => some { item := t.item, best := best, coil := coil }

/-- The list in pieces of 8, taken in order; `fuel` bounds the pieces (R109). -/
def inEights {α : Type} : Nat → List α → List (List α)
  | 0, _ => []
  | fuel + 1, l => if l.isEmpty then [] else l.take 8 :: inEights fuel (l.drop 8)

/-- The window's SIGHTING notices are built and queued in list order (R109). -/
def buildSightings (s : State) : State :=
  let list := s.track.table.filterMap sightingOf
  (inEights list.length list).foldl (fun s piece => queueNotice (.SIGHTING piece) s) s

/-- Every window mark is set to none (R38). -/
def clearMarks (s : State) : State :=
  s.onTrack fun u => { u with table := u.table.map fun t => { t with mark := .none } }

/-- Whether a track is marked. -/
def isMarked (t : Track) : Bool := t.mark ≠ .none

/-- The window end: the marked tracks are evaluated in creation order, the SIGHTING notices built, the marks cleared, and no
window is in flight (R17, R38, R44). -/
def windowEnd (s : State) : State :=
  let judged := ((s.track.table.filter isMarked).map Track.item).foldl (fun s item => evaluate item s) s
  (clearMarks (buildSightings judged)).onField fun f => { f with window := none }

/-- A window in flight is abandoned: no completion, no window end (R3). -/
def abandonWindow (s : State) : State := s.onField fun f => { f with window := none }

/-! ## The two halves (R1, R2) -/

/-- The S half-sweep begins, and with it skipped, abandoned or without a call, the window ends (R1, R4, R5, R11, R17). -/
def secondHalf (kind : WindowKind) (sense : DriveSense) (s : State) : State :=
  let checked := driveCheck .S sense s
  if checked.2 then
    let s1 := beginSweep kind .S checked.1
    match s1.field.window with
    | none => s1
    | some w => if sweepIdle w.sweep then windowEnd (completeSweep .S w.sweep s1) else s1
  else windowEnd checked.1

/-- The H half-sweep begins; skipped, abandoned or without a call, the S half-sweep begins at once (R1, R4, R5, R11). -/
def firstHalf (kind : WindowKind) (sense : DriveSense) (s : State) : State :=
  let checked := driveCheck .H sense s
  if checked.2 then
    let s1 := beginSweep kind .H checked.1
    match s1.field.window with
    | none => s1
    | some w => if sweepIdle w.sweep then secondHalf kind sense (completeSweep .H w.sweep s1) else s1
  else secondHalf kind sense checked.1

/-- The half-sweep in progress ends normally: after H the S half-sweep begins, after S the window ends (R1, R2, R17). -/
def endHalf (w : Window) (sense : DriveSense) (s : State) : State :=
  let s1 := completeSweep w.half w.sweep s
  match w.half with
  | .H => secondHalf (sweepKind w.sweep) sense s1
  | .S => windowEnd s1

/-- A round start ends the window in flight there (R2, R17). -/
def cutWindow (s : State) : State :=
  match s.field.window with
  | none => s
  | some w => windowEnd (completeSweep w.half w.sweep s)

/-! ## Window start (R1, R130) -/

/-- The kind of a window that starts now: FOLLOW when a track has verdict NONE and the pattern bit is 0 (R130). -/
def windowKind (s : State) : WindowKind :=
  if (s.track.table.any fun t => t.verdict.isNone) && !s.params.pattern.getLsbD s.access.patternPosition.val then .FOLLOW
  else .SEARCH

/-- A window starts: the kind is given, the pattern position advances, the marks are cleared, the halves run (R1, R38, R130). -/
def startWindow (sense : DriveSense) (s : State) : State :=
  firstHalf (windowKind s) sense
    (clearMarks (s.onAccess fun a => { a with patternPosition := a.patternPosition + 1 }))

/-! ## Replies and calls (R9, R12 to R15) -/

/-- Whether a good reply's read is kept in a half-sweep that has read `seen` (R14, R15). -/
def readKept (s : State) (seen : List ItemCode) (r : Reply) : Bool :=
  s.params.readFloor ≤ r.v.toNat && !seen.contains r.item

/-- A search record after a reply window is closed (R9). -/
def afterWindow (s : State) (reception : Reception) (r : SearchSweep) : SearchSweep :=
  let closed := { r with toClose := r.toClose - 1, closed := r.closed + 1 }
  match goodReply reception with
  | some reply => if readKept s r.read reply then { closed with read := r.read ++ [reply.item] } else closed
  | none =>
    if reception = .silence then { closed with empty := r.empty + 1 } else { closed with collided := r.collided + 1 }

/-- Hands a kept read to the track unit (R13). -/
def passRead (c : Coil) (seen : List ItemCode) (reply : Option Reply) (s : State) : State :=
  match reply with
  | none => s
  | some r => if readKept s seen r then takeRead r.item r.loan c r.v s else s

/-- Records the progress of the half-sweep, and ends it when its work is done (R2). -/
def progress (half : Coil) (sweep : Sweep) (done : Bool) (sense : DriveSense) (s : State) : State :=
  let w : Window := { half := half, sweep := sweep }
  let s1 := s.onField fun f => { f with window := some w }
  if done then endHalf w sense s1 else s1

/-- A reply window of a search half-sweep is closed and classed (R9, R13 to R15). -/
def closeWindow (reception : Reception) (sense : DriveSense) (s : State) : State :=
  match s.field.window with
  | none => s
  | some w =>
    match w.sweep with
    | .follow _ => s
    | .search r =>
      let after := afterWindow s reception r
      progress w.half (.search after) (after.toClose = 0) sense (passRead w.half r.read (goodReply reception) s)

/-- The good reply that answers a call: the called item, kept under R14 (R12). -/
def answerTo (s : State) (called : ItemCode) (reception : Reception) : Option Reply :=
  match goodReply reception with
  | none => none
  | some r => if r.item = called && readKept s [] r then some r else none

/-- A call of a follow half-sweep ends answered or missed (R12). -/
def endCall (reception : Reception) (sense : DriveSense) (s : State) : State :=
  match s.field.window with
  | none => s
  | some w =>
    match w.sweep with
    | .search _ => s
    | .follow r =>
      match r.waiting with
      | [] => s
      | item :: rest =>
        let reply := answerTo s item reception
        let after : FollowSweep :=
          { waiting := rest, called := r.called ++ [item]
            answered := if reply.isSome then r.answered ++ [item] else r.answered }
        progress w.half (.follow after) rest.isEmpty sense (passRead w.half [] reply s)

/-- The half-sweep in progress reaches its time limit and ends normally (R2). -/
def limitSweep (sense : DriveSense) (s : State) : State :=
  match s.field.window with
  | none => s
  | some w => endHalf w sense s

end Sys2Proof.Machine
end

