-- ==== Sys2Proof/Machine/LineOps.lean ====
section
/-! DEFINITION. The shared operations of the peer line, of DORMANT entry and wake, of the round start and of the resets (chapters
5 to 7, 12). -/

namespace Sys2Proof.Machine

/-! ## Line states (R91, R98, R99, R103) -/

/-- The driver is released: no start mark is being sent and no notice is in flight (R84, R120). -/
def releaseDriver (s : State) : State :=
  (s.onLine fun u => { u with startMark := .idle }).onNotices fun q => { q with inFlight := .NONE }

/-- Every slot table entry becomes NOT RECEIVED. -/
def clearSlots (s : State) : State := s.onLine fun u => { u with slots := Vector.replicate 16 .NOT_RECEIVED }

/-- Both classes become FRESH. -/
def freshClasses (s : State) : State := s.onLine fun u => { u with fieldClass := .FRESH, noticeClass := .FRESH }

/-- LISTEN entry (R91). -/
def listenEntry (s : State) : State :=
  freshClasses (clearPeers (clearSlots ((releaseDriver s).onLine fun u =>
    { u with state := .LISTEN, listenTime := 0, timer := 0, requestSet := none })))

/-- LONE entry from a stuck line (R99, R120, R127). -/
def loneEntry (timer : Nat) (s : State) : State :=
  let s1 := makeRecord (.FAULT .line .STUCK) (releaseDriver s)
  let s2 := s1.onLine fun u =>
    { u with state := .LONE, timer := timer, dominantRun := Config.stuckRun, recessiveRun := 0, requestSet := none }
  (clearPeers (clearSlots s2)).onAccess fun a => { a with grant := false }

/-- CLASHED entry (R98). -/
def clashEntry (s : State) : State :=
  makeRecord (.FAULT .line .CLASH)
    (abandonWindow ((releaseDriver s).onLine fun u => { u with state := .CLASHED, timing := .FOLLOWING }))

/-- SILENT entry, or for a CLASHED pedestal the same settings with the state kept (R103, R105). -/
def silentEntry (s : State) : State :=
  freshClasses (clearPeers ((releaseDriver s).onLine fun u =>
    { u with
      state := if u.state = .CLASHED then .CLASHED else .SILENT
      timing := .FOLLOWING
      requestSet := none }))

/-- Timing FREE in SILENT and CLASHED from a stuck line (R101). -/
def freeEntry (timer : Nat) (s : State) : State :=
  let s1 := makeRecord (.FAULT .line .STUCK) s
  let s2 := clearSlots (s1.onLine fun u =>
    { u with timing := .FREE, timer := timer, dominantRun := Config.stuckRun, recessiveRun := 0 })
  if s2.line.state = .CLASHED then clearPeers s2 else s2

/-! ## DORMANT entry and wake (R192, R194) -/

/-- DORMANT entry, one event (R192, with R40, R103, R123, R127, R154, R163). -/
def dormantEntry (s : State) : State :=
  let s1 := (abandonWindow s).onAccess fun a => { a with grant := false }
  let s2 := s1.onTrack fun u => { u with table := [], cache := [] }
  let s3 := s2.onNotices fun _ => { outbox := [], inFlight := .NONE }
  (dormantTimerZero (silentEntry (armLanes s3))).onSupply fun u => { u with dormancy := .DORMANT }

/-- Wake, one event: LISTEN, or CLASHED kept; the cadence by the source (R103, R105, R138, R194; for CLASHED log entry 13). -/
def wake (cadence : Cadence) (s : State) : State :=
  let s1 := dormantTimerZero (s.onSupply fun u => { u with dormancy := .AWAKE })
  let s2 := s1.onAccess fun a => { a with cadence := cadence, quietRounds := 0 }
  let s3 := s2.onLine fun u => { u with timing := .FOLLOWING }
  if s3.line.state = .CLASHED then
    freshClasses (clearPeers ((clearSlots s3).onLine fun u => { u with requestSet := none }))
  else listenEntry s3

/-! ## Slots handed on (R61, R94, R95, R134) -/

/-- A calm value handed for a station (R134): a change from CALM to BRISK of a station within reach wakes a DORMANT pedestal, and
otherwise makes a CALM one BRISK and sets the dormant timer to 0. -/
def handCalm (j : Fin 16) (value : Cadence) (s : State) : State :=
  if withinReach s j then
    let s1 := s.onAccess fun a => { a with peerCalm := a.peerCalm.set j value }
    if s.access.peerCalm[j] = .CALM && value = .BRISK then
      if s.supply.dormancy = .DORMANT then wake .CALM s1 else dormantTimerZero (briskEntry s1)
    else s1
  else s

/-- The neighbour's code for a shared lane goes to confirmation (R94, R95). -/
def handCode (j : Fin 16) (o : SlotOutcome) (s : State) : State :=
  if hasLeft s && j.val + 1 = s.station then
    match slotObservation SlotWord.right o with
    | none => s
    | some seen => observe .left seen s
  else if hasRight s && j.val = s.station + 1 then
    match slotObservation SlotWord.left o with
    | none => s
    | some seen => observe .right seen s
  else s

/-- The left neighbour's beam bits go to passage judgement (R61, R94). -/
def handBeams (j : Fin 16) (o : SlotOutcome) (s : State) : State :=
  if hasLeft s && j.val + 1 = s.station && slotBeamBroken o then
    s.onTrack fun u => { u with leftBroken := some s.now }
  else s

/-- Replaces a slot table entry. -/
def putSlot (j : Fin 16) (o : SlotOutcome) (s : State) : State := s.onLine fun u => { u with slots := u.slots.set j o }

/-- The end of another station's slot: its outcome replaces its entry and its fields are handed on (R93, R94). -/
def slotEnd (j : Fin 16) (o : SlotOutcome) (s : State) : State :=
  if readsSlots s && j.val ≠ s.station then
    let s1 := (putSlot j o s).onLine fun u => { u with timer := slotLastBit j.val }
    let s2 := if takesRow s then handBeams j o (handCode j o s1) else s1
    handCalm j (slotCalm o) s2
  else s

/-! ## Slot times that do not pass, and framing errors (R90, R93) -/

/-- One station slot, missed when its number is so: it is entered as NOT RECEIVED, and hands CALM (R93, R94; log entries 11 and
35). The own station has no entry. -/
def missSlot (missed : Nat → Bool) (s : State) (j : Fin 16) : State :=
  if j.val ≠ s.station && missed j.val then handCalm j .CALM (putSlot j .NOT_RECEIVED s) else s

/-- The station slots whose slot times do not pass in a round (R93). -/
def missSlots (missed : Nat → Bool) (s : State) : State := (List.finRange 16).foldl (missSlot missed) s

/-- The effects of a framing error on the round it abandons: a line error, the station slots that had not passed when the mark
was known, at its 8th dominant bit time, and the grant (R90, R127; log entry 31 for a readback failure in a cut slot). -/
def framingError (began : Nat) (s : State) : State :=
  (missSlots (fun n => began + 7 ≤ slotLastBit n) (lineError s)).onAccess fun a => { a with grant := false }

/-! ## Round start (R87) -/

/-- Where a round start comes from: a start mark, a framing error, the mark that ends LISTEN, or the own timer. -/
inductive RoundHow where
  | startMark
  | framing
  | joined
  | timer
  deriving DecidableEq, Repr

/-- The order in which the model takes the parts of a round start when the command gives no order the rules allow
(log entry 9). -/
def canonicalOrder : List RoundTask :=
  [.windowEnd, .trackExpiry, .cacheAgeing, .minuteCount, .quietCount, .fieldClass, .staleNotices, .soundTimers, .beamsBroken,
    .dormantTimer, .requestDecision, .slotWord, .windowStart]

/-- The orders the rules fix: window end before window start (R2), expiry before window start (R36), quiet count before request
decision and slot word (R132), field class before slot word and before the grant is used (R129, R127), request decision and slot
word before a drive check of the window (R7, R124). -/
def fixedOrders : List (RoundTask × RoundTask) :=
  [(.windowEnd, .windowStart), (.trackExpiry, .windowStart), (.quietCount, .requestDecision), (.quietCount, .slotWord),
    (.fieldClass, .slotWord), (.fieldClass, .windowStart), (.requestDecision, .windowStart), (.slotWord, .windowStart)]

/-- Whether an order holds every part once and keeps the orders the rules fix. -/
def orderAllowed (order : List RoundTask) : Bool :=
  order.length = canonicalOrder.length && (canonicalOrder.all fun t => order.contains t) &&
    fixedOrders.all fun p => order.idxOf p.1 < order.idxOf p.2

/-- The order a round start is taken in. -/
def roundOrder (input : RoundInput) : List RoundTask :=
  if orderAllowed input.order then input.order else canonicalOrder

/-- The minute counter advances with the round count (R80). -/
def minuteAdvance (s : State) : State :=
  if Config.minuteRounds ≤ s.verdict.minute + 1 then minuteTurn s
  else s.onVerdict fun v => { v with minute := v.minute + 1 }

/-- When the quiet-round count of a BRISK pedestal stands at calm_after, the cadence becomes CALM and the count 0 (R132). -/
def calmTest (s : State) : State :=
  if s.supply.dormancy = .AWAKE && s.access.cadence = .BRISK && s.params.calmAfter ≤ s.access.quietRounds then
    s.onAccess fun a => { a with cadence := .CALM, quietRounds := 0 }
  else s

/-- The quiet-round count of an AWAKE, BRISK pedestal at a round start (R132, R138). -/
def quietAdvance (s : State) : State :=
  if s.supply.dormancy = .AWAKE && s.access.cadence = .BRISK then
    calmTest (s.onAccess fun a =>
      { a with quietRounds := if !s.track.table.isEmpty || beamBroken s then 0 else a.quietRounds + 1 })
  else s

/-- The field class at the round start that ends a SYNCED round with a start mark (R129). -/
def fieldClassUpdate (how : RoundHow) (s : State) : State :=
  if how = .startMark && s.line.state = .SYNCED then
    if s.access.grant then s.onLine fun u => { u with fieldClass := .DEFERRED }
    else if freshRival s then s
    else s.onLine fun u => { u with fieldClass := .FRESH }
  else s

/-- The right lane's last-broken round at a round start (R61, R166). -/
def beamsAtRound (s : State) : State :=
  if beamBroken s then s.onTrack fun u => { u with rightBroken := some s.now } else s

/-- A quiet minute: the quiet minutes increase, and automatic DORMANT entry falls due at dormant_delay, made at once or left
pending (R191). -/
def quietMinuteTurn (s : State) : State :=
  let minutes := min 240 (s.supply.quietMinutes + 1)
  let s1 := s.onSupply fun u => { u with dormantRounds := 0, quietMinutes := minutes }
  if s.params.dormantDelay ≠ 0 && s.params.dormantDelay ≤ minutes then
    if mayRest s then dormantEntry s1 else s1.onSupply fun u => { u with pendingEntry := true }
  else s1

/-- A pending entry is made at a quiet round start at which it may be made (R191). -/
def pendingTest (s : State) : State :=
  if s.supply.dormancy = .AWAKE && s.supply.pendingEntry && mayRest s then dormantEntry s else s

/-- The dormant timer at a round start of an AWAKE pedestal (R191). -/
def dormantAdvance (s : State) : State :=
  if s.supply.dormancy = .AWAKE then
    if quiet s then
      pendingTest
        (if Config.minuteRounds ≤ s.supply.dormantRounds + 1 then quietMinuteTurn s
         else s.onSupply fun u => { u with dormantRounds := u.dormantRounds + 1 })
    else dormantTimerZero s
  else s

/-- The request decision of the new round; none outside SYNCED (R124). -/
def requestDecide (s : State) : State :=
  s.onAccess fun a => { a with requests := if s.line.state = .SYNCED then some (requestNow s) else none }

/-- The slot word of the new round is formed (R92). -/
def formSlotWord (s : State) : State := s.onLine fun u => { u with slotWord := slotWordNow s }

/-- A window starts in a SYNCED round that begins with a start mark and a held grant, and in a LONE round (R1, R127, R135). -/
def windowAtRound (how : RoundHow) (sense : DriveSense) (s : State) : State :=
  if (s.line.state = .SYNCED && how = .startMark && s.access.grant) || (s.line.state = .LONE && loneRound s) then
    startWindow sense (s.onAccess fun a => { a with grant := false })
  else s

/-- One part of a round start. -/
def roundTask (how : RoundHow) (sense : DriveSense) : RoundTask → State → State
  | .windowEnd => cutWindow
  | .trackExpiry => expireTracks
  | .cacheAgeing => ageCache
  | .minuteCount => minuteAdvance
  | .quietCount => quietAdvance
  | .fieldClass => fieldClassUpdate how
  | .staleNotices => dropStale
  | .soundTimers => fun s => soundTick .right (soundTick .left s)
  | .beamsBroken => beamsAtRound
  | .dormantTimer => dormantAdvance
  | .requestDecision => requestDecide
  | .slotWord => formSlotWord
  | .windowStart => windowAtRound how sense

/-- A round start with the timer set to `timer`: the round count increases by one, the blocks take the round in the order of the
command, the request set and an unused grant are none again, and the station slots that the timer has passed already are missed
in the round that begins (R87, R93, R96, R127; log entry 35). -/
def roundStart (how : RoundHow) (timer : Nat) (input : RoundInput) (s : State) : State :=
  let s1 := s.onLine fun u => { u with timer := timer, round := u.round + 1 }
  let s2 := (roundOrder input).foldl (fun s t => roundTask how input.sense t s) s1
  let s3 := (s2.onLine fun u => { u with requestSet := none }).onAccess fun a => { a with grant := false }
  missSlots (fun n => slotLastBit n < timer) s3

/-! ## Notice slots (R111 to R119) -/

/-- A good SIGHTING notice from a station: a neighbour's entries are taken in order, any other's ignored (R31, R119). -/
def takeSightings (station : Fin 16) (entries : List Sighting) (s : State) : State :=
  if station.val + 1 = s.station then entries.foldl (fun s e => takeSighting .left e s) s
  else if station.val = s.station + 1 then entries.foldl (fun s e => takeSighting .right e s) s
  else s

/-- A good VERDICT notice: peer-alarms, and PEER-VERDICT reports while row_reports is on (R74, R75, R119). -/
def takeVerdicts (station : Fin 16) (entries : List VerdictEntry) (s : State) : State :=
  let s1 := entries.foldl (fun s e => takeVerdictEntry e s) s
  if s.params.rowReports then
    entries.foldl (fun s e => makeRecord (.PEER_VERDICT station e.item e.lane e.verdict) s) s1
  else s1

/-- A good notice is dispatched by its kind (R119). -/
def dispatchNotice (station : Fin 16) (body : NoticeBody) (s : State) : State :=
  match body with
  | .SIGHTING es => takeSightings station es s
  | .VERDICT es => takeVerdicts station es s
  | .EXCUSE es => es.foldl (fun s e => applyExcuse e.item e.life.toNat s) s

/-- A slot won by another pedestal: bad notices are counted, those under the own number ignored, the others dispatched
(R117 to R119). -/
def checkNotice (data : List Bool) (s : State) : State :=
  match noticeBody data with
  | none => noticeCrcError s
  | some body => if (noticeStation data).val = s.station then s else dispatchNotice (noticeStation data) body s

/-- Whether every data bit was read recessive (R116). -/
def slotIdle (data : List Bool) : Bool := data.all id

/-- The notice class of a SYNCED pedestal after a slot it did not win: FRESH after an idle slot or a recessive class bit
(R115). -/
def classAfterSlot (data : List Bool) (s : State) : State :=
  if slotIdle data || data.headD true then s.onLine fun u => { u with noticeClass := .FRESH } else s

/-- A slot not won is idle, or a notice to check (R116). -/
def receiveSlot (data : List Bool) (s : State) : State := if slotIdle data then s else checkNotice data s

/-- Replaces the in-flight mark. -/
def putFlight (f : Flight) (s : State) : State := s.onNotices fun q => { q with inFlight := f }

/-- The in-flight mark is removed at the end of the slot (R106). -/
def unmark (s : State) : State := putFlight .NONE s

/-- The readback of the notice bits placed so far: a bit of the arbitration field read dominant loses the slot, one of the body is
a line error, and either ends the placing (R112, R113). -/
def readBackNotice (data : List Bool) (s : State) : State :=
  match placedBits s with
  | none => s
  | some placed =>
    match contestOf placed data with
    | .NONE => s
    | .PLACING => s
    | .LOST => putFlight .LOST s
    | .FAILED => putFlight .FAILED (lineError s)

/-- The end of a notice slot for a SYNCED pedestal (R112 to R118). -/
def slotEndSynced (data : List Bool) (s : State) : State :=
  let s1 := readBackNotice data s
  match s1.notices.inFlight with
  | .NONE => receiveSlot data (classAfterSlot data s1)
  | .LOST => receiveSlot data (classAfterSlot data (unmark s1))
  | .FAILED => unmark s1
  | .PLACING =>
    ((unmark s1).onNotices fun q => { q with outbox := q.outbox.tail }).onLine fun u => { u with noticeClass := .DEFERRED }

/-! ## Resets (R18, R40, R105, R123, R137, R154, R163, R172, R186, R188) -/

/-- The state a POWER-ON or RESET FULL leaves, with the straps as read and the cause; the queue of waiting commands is not the
part's (R187 to R189). -/
def powerOnState (cause : ResetCause) (straps : Straps) (s : State) : State :=
  { State.reset with
    supply := { State.reset.supply with straps := straps, cause := cause }
    pending := s.pending }

/-- RESET ENGINE, one event in the order of R188. -/
def engineReset (s : State) : State :=
  let s1 := (abandonWindow s).onField fun f => { f with coilH := .OK, coilS := .OK, qx4 := 8 }
  let s2 := s1.onTrack fun _ => { table := [], cache := [], leftBroken := none, rightBroken := none }
  let s3 := s2.onNotices fun _ => { outbox := [], inFlight := .NONE }
  let s4 := (armLanes s3).onLanes fun u => { u with clear := { pressed := true, latest := none } }
  let s5 := freshClasses (clearPeers s4)
  let s6 := s5.onAccess fun a =>
    { a with grant := false, cadence := .BRISK, quietRounds := 0, patternPosition := 0 }
  let s7 := s6.onBeams fun b =>
    { b with
      hall := { confirmed := .CLEAR, latest := none }
      street := { confirmed := .CLEAR, latest := none }
      footfall := .CLEAR }
  dormantTimerZero s7

/-- RESET COUNTS: the lane counts and the error counts set to 0 (R172, R180, R186). -/
def countsReset (s : State) : State :=
  (s.onBeams fun b => { b with counts := State.reset.beams.counts }).onHost fun h =>
    { h with errors := State.reset.host.errors }

end Sys2Proof.Machine
end

