-- ==== Sys2Proof/Machine/HostOps.lean ====
section
/-! DEFINITION. The shared operations of the host port: parameters, the actions of the commands, and how a complete frame is
taken and answered (chapter 11). -/

namespace Sys2Proof.Machine

/-! ## Parameters (R47, R178) -/

/-- The value held for a parameter id; none for an id outside 1..15 (R178, R201). -/
def paramValue (p : Params) (id : Nat) : Option Nat :=
  match id with
  | 1 => some p.loanMask.toNat
  | 2 => some p.readFloor
  | 3 => some p.decayStep
  | 4 => some p.tSide
  | 5 => some p.tCross
  | 6 => some p.mSide
  | 7 => some p.tSingle
  | 8 => some p.linger
  | 9 => some p.peerAge
  | 10 => some p.soundLimit
  | 11 => some p.volume
  | 12 => some p.pattern.toNat
  | 13 => some p.calmAfter
  | 14 => some p.dormantDelay
  | 15 => some p.rowReports.toNat
  | _ => none

/-- The parameters after a SET, each value brought into its range; T_side raises T_cross, and T_cross is stored at T_side or
above (R47, R178). An id outside 1..15 changes nothing. -/
def storeParam (p : Params) (id v : Nat) : Params :=
  match id with
  | 1 => { p with loanMask := BitVec.ofNat 8 (clampNat 0 255 v) }
  | 2 => { p with readFloor := clampNat 0 60 v }
  | 3 => { p with decayStep := clampNat 1 64 v }
  | 4 =>
    let stored := clampNat 8 200 v
    { p with tSide := stored, tCross := max stored p.tCross }
  | 5 => { p with tCross := clampNat p.tSide 400 v }
  | 6 => { p with mSide := clampNat 2 40 v }
  | 7 => { p with tSingle := clampNat 40 508 v }
  | 8 => { p with linger := clampNat 5 250 v }
  | 9 => { p with peerAge := clampNat 2 50 v }
  | 10 => { p with soundLimit := clampNat 50 3000 v }
  | 11 => { p with volume := clampNat 0 15 v }
  | 12 => { p with pattern := BitVec.ofNat 8 (clampNat 0 255 v) }
  | 13 => { p with calmAfter := clampNat 25 3000 v }
  | 14 => { p with dormantDelay := clampNat 0 240 v }
  | 15 => { p with rowReports := v ≠ 0 }
  | _ => p

/-- The id and value a parameter response carries (R201). -/
def paramData (p : Params) (id : Byte) : Answer :=
  match paramValue p id.toNat with
  | none => .REFUSED .UNKNOWN
  | some v => .DONE (id :: beBytes 2 v)

/-! ## What a command does: the state after it, its answer, and the scope of a reset that it asks for -/

/-- The effect and answer of a command whose payload has the command's own length. -/
structure Taken where
  state : State
  answer : Answer
  reset : Option ResetScope := none

/-- A refused command changes nothing (R176). -/
def refuse (reason : Reason) (s : State) : Taken := { state := s, answer := .REFUSED reason }

/-- A byte of the payload. -/
def payloadByte (payload : List Byte) (i : Nat) : Byte := payload.getD i 0

/-- The item code that opens a payload (R200). -/
def payloadItem (payload : List Byte) : ItemCode := BitVec.ofNat 64 (natOfBytes (payload.take 8))

/-- The lane state bytes of STATUS and HUSH (R201). -/
def laneBytes (s : State) : List Byte :=
  [LaneSide.left, LaneSide.right].map fun l => if hasLane s l then laneStateByte (laneState s l) else 0xFF

/-- The peer code bytes of STATUS (R201). -/
def peerBytes (s : State) : List Byte :=
  [LaneSide.left, LaneSide.right].map fun l => if hasLane s l then peerCodeByte (peerRecord s l).confirmed else 0xFF

/-- The six error counts in the order of R185 (R201). -/
def errorBytes (e : ErrorCounts) : List Byte :=
  [e.lineErrors, e.noticeCrc, e.evictions, e.outboxDrops, e.reportLosses, e.hostFrames].flatMap fun c => beBytes 2 c.toNat

/-- The five lane counts in the order of R169 (R170, R201). -/
def countBytes (c : LaneCounts) : List Byte :=
  [c.beamExits, c.beamEntries, c.tagAlarms, c.tagPasses, c.tagEntries].flatMap fun n => beBytes 3 n.toNat

/-- IDENTIFY (R177). -/
def actIdentify (s : State) : Taken :=
  { state := s
    answer := .DONE
      (beBytes 2 0x6B21 ++ beBytes 2 0x0416 ++ [0x01, strapsByte s.supply.straps, causeByte s.supply.cause]) }

/-- The coils byte of STATUS: coil H FAULT in bit 1, coil S FAULT in bit 0 (R201). DESIGN CHOICE: bits 7 to 2, which R201 gives no
value, are sent as 0 (log entry 37). -/
def coilsByte (s : State) : Byte := BitVec.ofNat 8 (2 * (coilFault s .H).toNat + (coilFault s .S).toNat)

/-- STATUS (R177). -/
def actStatus (s : State) : Taken :=
  { state := s
    answer := .DONE
      ([lineStateByte s.line.state, cadenceByte s.access.cadence, coilsByte s] ++ laneBytes s ++ peerBytes s ++ errorBytes s.host.errors ++
        [BitVec.ofNat 8 s.host.ring.length, BitVec.ofNat 8 s.host.streaming.toNat]) }

/-- TRACKS with a start index: up to six summaries and the number of tracks (R39, R201). -/
def actTracks (index : Nat) (s : State) : Taken :=
  { state := s
    answer := .DONE
      (packBits (fieldBits 8 s.track.table.length ++ ((s.track.table.drop index).take 6).flatMap (summaryBits s.now))) }

/-- COUNTS (R164, R170). -/
def actCounts (s : State) : Taken :=
  if hasRight s then { state := s, answer := .DONE (countBytes s.beams.counts) } else refuse .NO_LANE s

/-- TAKE-COUNTS (R164, R170). -/
def actTakeCounts (s : State) : Taken :=
  if hasRight s then
    { state := s.onBeams fun b => { b with counts := State.reset.beams.counts }
      answer := .DONE (countBytes s.beams.counts) }
  else refuse .NO_LANE s

/-- The record in transmission, which REPORTS passes over (R183, R184). -/
def inTransmission (h : HostPort) : List Report := if h.transmitter = .SENDING_REPORT then h.ring.take 1 else []

/-- The records REPORTS can return (R183). -/
def waitingReports (h : HostPort) : List Report := if h.transmitter = .SENDING_REPORT then h.ring.tail else h.ring

/-- REPORTS with a number: the oldest up to four records not in transmission are removed and returned (R183). -/
def actReports (n : Nat) (s : State) : Taken :=
  let taken := (waitingReports s.host).take (min n 4)
  let left := inTransmission s.host ++ (waitingReports s.host).drop (min n 4)
  { state := s.onHost fun h => { h with ring := left }
    answer := .DONE (BitVec.ofNat 8 left.length :: taken.flatMap reportBytes) }

/-- STREAM (R184). -/
def actStream (arg : Byte) (s : State) : Taken :=
  if arg = 0 then { state := s.onHost fun h => { h with streaming := false }, answer := .DONE [0] }
  else if arg = 1 then { state := s.onHost fun h => { h with streaming := true }, answer := .DONE [1] }
  else refuse .UNKNOWN s

/-- SET (R178); a SET of dormant_delay to 0 clears a pending entry (R191). -/
def actSet (id : Byte) (value : Nat) (s : State) : Taken :=
  if (paramValue s.params id.toNat).isNone then refuse .UNKNOWN s
  else
    let s1 := s.onHost fun h => { h with params := storeParam h.params id.toNat value }
    let s2 := if id = 14 && value = 0 then s1.onSupply fun u => { u with pendingEntry := false } else s1
    { state := s2, answer := paramData s2.params id }

/-- GET (R178). -/
def actGet (id : Byte) (s : State) : Taken := { state := s, answer := paramData s.params id }

/-- EXCUSE-ADD: applied, then spread (R77 to R79, R81). -/
def actExcuseAdd (item : ItemCode) (life : Byte) (s : State) : Taken :=
  let s1 := queueNotice (.EXCUSE [{ item := item, life := life }]) (applyExcuse item life.toNat s)
  { state := s1, answer := .DONE [BitVec.ofNat 8 s1.verdict.excuses.length] }

/-- EXCUSE-DROP: applied, then spread (R79, R81). -/
def actExcuseDrop (item : ItemCode) (s : State) : Taken :=
  let s1 := queueNotice (.EXCUSE [{ item := item, life := 0 }]) (removeExcuse item s)
  { state := s1
    answer := .DONE [BitVec.ofNat 8 (excused s item).toNat, BitVec.ofNat 8 s1.verdict.excuses.length] }

/-- EXCUSE-LIST with an index: up to eight entries in list order and the number of entries (R82). -/
def actExcuseList (index : Nat) (s : State) : Taken :=
  { state := s
    answer := .DONE
      (BitVec.ofNat 8 s.verdict.excuses.length ::
        (((excuseOrder s.verdict.excuses).drop index).take 8).flatMap fun e =>
          beBytes 8 e.item.toNat ++ [BitVec.ofNat 8 e.life]) }

/-- A HUSH of named lanes, left before right (R147). -/
def hushNamed (left right : Bool) (s : State) : State :=
  let s1 := if left then hushLane .left .HOST s else s
  if right then hushLane .right .HOST s1 else s1

/-- HUSH (R147). -/
def actHush (arg : Byte) (s : State) : Taken :=
  let done (s1 : State) : Taken := { state := s1, answer := .DONE (laneBytes s1) }
  if arg = 1 then (if hasLeft s then done (hushNamed true false s) else refuse .NO_LANE s)
  else if arg = 2 then (if hasRight s then done (hushNamed false true s) else refuse .NO_LANE s)
  else if arg = 3 then (if hasLeft s || hasRight s then done (hushNamed true true s) else refuse .NO_LANE s)
  else refuse .UNKNOWN s

/-- The cadence entry that a CADENCE payload stores (R156, R200). -/
def payloadEntry (payload : List Byte) : CadenceEntry :=
  { toneA := storedTone (natOfBytes ((payload.drop 1).take 2))
    toneB := storedTone (natOfBytes ((payload.drop 3).take 2))
    level := storedLevel (payloadByte payload 5)
    duration := min 100 (payloadByte payload 6).toNat }

/-- CADENCE (R156). -/
def actCadence (payload : List Byte) (s : State) : Taken :=
  let index : Fin 16 := Fin.ofNat 16 (payloadByte payload 0).toNat
  let e := payloadEntry payload
  { state := s.onSounder fun u => { u with table := u.table.set index e }
    answer := .DONE (cadenceBytes index e) }

/-- REST (R179). -/
def actRest (s : State) : Taken :=
  if anySounding s then refuse .LANE_ACTIVE s else { state := dormantEntry s, answer := .DONE [] }

/-- RESET: the response is made, and the reset acts when it has been sent (R180). -/
def actReset (scope : Byte) (s : State) : Taken :=
  if scope = 1 then { state := s, answer := .DONE [], reset := some .FULL }
  else if scope = 2 then { state := s, answer := .DONE [], reset := some .ENGINE }
  else if scope = 3 then { state := s, answer := .DONE [], reset := some .COUNTS }
  else refuse .UNKNOWN s

/-! ## Taking a frame (R174 to R176) -/

/-- The receiver returns to HUNT with a complete frame in its buffer (R174, R175). DESIGN CHOICE, log entry 33: a complete frame
given as a command's row in the middle of another frame takes that frame's place. -/
def frameReceived (f : Frame) (s : State) : State :=
  s.onHost fun h =>
    { h with receiver := .HUNT, buffer := { length := f.payload.length, code := f.code, payload := f.payload } }

/-- A frame is discarded and counted, and the receiver hunts (R174). -/
def discardFrame (s : State) : State := hostFrameCounted (s.onHost fun h => { h with receiver := .HUNT })

/-- A command is taken: its response is outstanding from that moment on, before the command acts and settles what the response
says. No REPORT frame begins behind it (R175, R184). -/
def claimResponse (f : Frame) (s : State) : State :=
  s.onHost fun h => { h with outstanding := some { frame := { f with payload := [] }, reset := none } }

/-- The response is made; an IDLE transmitter begins to send it (R175). -/
def respond (r : Response) (s : State) : State :=
  s.onHost fun h =>
    { h with
      outstanding := some r
      transmitter := if h.transmitter = .IDLE then .SENDING_RESPONSE else h.transmitter }

/-- A complete frame is handled: discarded and counted while a response is outstanding; else a DORMANT pedestal wakes, and the
command is taken and answered (R175, R194). A payload over 120 bytes is a bad length (R174). -/
def takeFrame (f : Frame) (take : State → State × Response) (s : State) : State :=
  if Config.maxPayload < f.payload.length then discardFrame s
  else
    let s1 := frameReceived f s
    if s1.host.outstanding.isSome then hostFrameCounted s1
    else
      let s2 := if s1.supply.dormancy = .DORMANT then wake .BRISK s1 else s1
      let taken := take (claimResponse f s2)
      respond taken.2 taken.1

/-- A command: its length is checked, then it acts (R176). -/
def takeCommand (code : Byte) (length : Nat) (payload : List Byte) (act : State → Taken) (s : State) : State × Response :=
  if payload.length ≠ length then (s, { frame := answerFrame code (.REFUSED .LENGTH), reset := none })
  else
    let t := act s
    (t.state, { frame := answerFrame code t.answer, reset := t.reset })

/-- A complete frame of a known code. -/
def commandFrame (code : Byte) (length : Nat) (payload : List Byte) (act : State → Taken) (s : State) : State :=
  takeFrame { code := code, payload := payload } (takeCommand code length payload act) s

/-- A complete frame whose code names no command (R176, R201). -/
def unknownCode (code : Byte) (payload : List Byte) (s : State) : State :=
  takeFrame { code := code, payload := payload } (fun s => (s, { frame := unknownFrame code, reset := none })) s

/-- A complete frame of any code (R176, R200). -/
def completeFrame (f : Frame) (s : State) : State :=
  let p := f.payload
  match f.code.toNat with
  | 0x01 => commandFrame f.code 0 p actIdentify s
  | 0x02 => commandFrame f.code 0 p actStatus s
  | 0x03 => commandFrame f.code 1 p (actTracks (payloadByte p 0).toNat) s
  | 0x04 => commandFrame f.code 0 p actCounts s
  | 0x05 => commandFrame f.code 0 p actTakeCounts s
  | 0x06 => commandFrame f.code 1 p (actReports (payloadByte p 0).toNat) s
  | 0x07 => commandFrame f.code 1 p (actStream (payloadByte p 0)) s
  | 0x08 => commandFrame f.code 3 p (actSet (payloadByte p 0) (natOfBytes (p.drop 1))) s
  | 0x09 => commandFrame f.code 1 p (actGet (payloadByte p 0)) s
  | 0x0A => commandFrame f.code 9 p (actExcuseAdd (payloadItem p) (payloadByte p 8)) s
  | 0x0B => commandFrame f.code 8 p (actExcuseDrop (payloadItem p)) s
  | 0x0C => commandFrame f.code 1 p (actExcuseList (payloadByte p 0).toNat) s
  | 0x0D => commandFrame f.code 1 p (actHush (payloadByte p 0)) s
  | 0x0E => commandFrame f.code 7 p (actCadence p) s
  | 0x0F => commandFrame f.code 0 p actRest s
  | 0x10 => commandFrame f.code 1 p (actReset (payloadByte p 0)) s
  | _ => unknownCode f.code p s

/-! ## The receiver, byte by byte (R174) -/

/-- Puts the receiver into a state with its buffer. -/
def putReceiver (r : Receiver) (b : ReceiveBuffer) (s : State) : State :=
  s.onHost fun h => { h with receiver := r, buffer := b }

/-- One byte of the link at the receiver (R174). -/
def receiveByte (b : LinkByte) (s : State) : State :=
  let buf := s.host.buffer
  match s.host.receiver with
  | .HUNT =>
    if b.stopDominant || b.value ≠ 0xC3 then s else putReceiver .LENGTH { length := 0, code := 0, payload := [] } s
  | .LENGTH =>
    if b.stopDominant || Config.maxPayload < b.value.toNat then discardFrame s
    else putReceiver .CODE { buf with length := b.value.toNat } s
  | .CODE =>
    if b.stopDominant then discardFrame s
    else putReceiver (if buf.length = 0 then .CHECK else .PAYLOAD) { buf with code := b.value } s
  | .PAYLOAD =>
    if b.stopDominant then discardFrame s
    else
      let payload := buf.payload ++ [b.value]
      putReceiver (if payload.length < buf.length then .PAYLOAD else .CHECK) { buf with payload := payload } s
  | .CHECK =>
    if b.stopDominant || b.value ≠ crc8 (BitVec.ofNat 8 buf.length :: buf.code :: buf.payload) then discardFrame s
    else completeFrame { code := buf.code, payload := buf.payload } s

/-- Bytes of the link, one at a time. -/
def receiveBytes (bytes : List LinkByte) (s : State) : State := bytes.foldl (fun s b => receiveByte b s) s

/-- More than 5 ms pass between two bytes: a frame that has passed its sync byte is discarded and counted; in HUNT the gap is
passed over (R174). -/
def byteGap (s : State) : State := if s.host.receiver = .HUNT then s else discardFrame s

/-! ## The transmitter (R175, R180, R184) -/

/-- A reset that was taken acts when its response has been sent (R180, R188). -/
def actOnReset (scope : Option ResetScope) (pins : StrapPins) (s : State) : State :=
  match scope with
  | none => s
  | some .FULL => powerOnState .FULL (readStraps pins) s
  | some .ENGINE => engineReset s
  | some .COUNTS => countsReset s

/-- The last byte of the response has been sent (R175, R180, R184). -/
def responseEnd (pins : StrapPins) (s : State) : State :=
  match s.host.transmitter, s.host.outstanding with
  | .SENDING_RESPONSE, some r =>
    startDelivery (actOnReset r.reset pins (s.onHost fun h => { h with outstanding := none, transmitter := .IDLE }))
  | .SENDING_RESPONSE, none => s
  | .IDLE, _ => s
  | .SENDING_REPORT, _ => s

/-- The last byte of a REPORT frame has been sent: its record leaves the ring, and a waiting response begins, or delivery is
tested again (R175, R184). -/
def reportEnd (s : State) : State :=
  if s.host.transmitter = .SENDING_REPORT then
    let s1 := s.onHost fun h => { h with ring := h.ring.tail, transmitter := .IDLE }
    if s1.host.outstanding.isSome then s1.onHost fun h => { h with transmitter := .SENDING_RESPONSE }
    else startDelivery s1
  else s

end Sys2Proof.Machine
end

