-- ==== Sys2Proof/Machine/FieldWindow.lean ====
section
/-! DEFINITION. The meanings of the rows of field windows (chapter 1). -/

namespace Sys2Proof.Machine

/-- REPLY_WINDOW_END (R9). -/
def execReplyWindowEnd (reception : Reception) (sense : DriveSense) (s : State) : Host.Outcome State Fault Refusal :=
  whileRunning (closeWindow reception sense) s

/-- FOLLOW_CALL_END (R12). -/
def execFollowCallEnd (reception : Reception) (sense : DriveSense) (s : State) : Host.Outcome State Fault Refusal :=
  whileRunning (endCall reception sense) s

/-- HALF_SWEEP_TIME_LIMIT (R2). -/
def execHalfSweepTimeLimit (sense : DriveSense) (s : State) : Host.Outcome State Fault Refusal :=
  whileRunning (limitSweep sense) s

end Sys2Proof.Machine
end

