-- ==== Sys2Proof/Machine/HostRows.lean ====
section
/-! DEFINITION. The meanings of the rows of the host port (chapter 11). A named command's row carries the payload of its complete
frame (R173 to R176, R200). -/

namespace Sys2Proof.Machine

/-! ## Frames that are discarded or refused (R174 to R176) -/

/-- HOST_FRAME_BAD (R174): the bytes of the link up to the one that discards the frame. -/
def execHostFrameBad (bytes : List LinkByte) (s : State) : Host.Outcome State Fault Refusal :=
  whileRunning (receiveBytes bytes) s

/-- HOST_BYTE_GAP_TIMEOUT (R174): bytes of the link, a gap of more than 5 ms, and the late byte, which is taken in HUNT. -/
def execHostByteGapTimeout (before : List LinkByte) (late : LinkByte) (s : State) : Host.Outcome State Fault Refusal :=
  whileRunning (fun s => receiveByte late (byteGap (receiveBytes before s))) s

/-- HOST_FRAME_BUSY (R175): a complete frame, discarded while a response is outstanding. -/
def execHostFrameBusy (code : Byte) (payload : List Byte) (s : State) : Host.Outcome State Fault Refusal :=
  whileRunning (completeFrame { code := code, payload := payload }) s

/-- UNKNOWN_COMMAND (R176): a complete frame whose code names no command. -/
def execUnknownCommand (code : Byte) (payload : List Byte) (s : State) : Host.Outcome State Fault Refusal :=
  whileRunning (fun s => completeFrame { code := code, payload := payload } s) s

/-! ## Commands (R176 to R184) -/

/-- IDENTIFY (R177). -/
def execIdentify (payload : List Byte) (s : State) : Host.Outcome State Fault Refusal :=
  whileRunning (commandFrame 0x01 0 payload actIdentify) s

/-- STATUS (R177). -/
def execStatus (payload : List Byte) (s : State) : Host.Outcome State Fault Refusal :=
  whileRunning (commandFrame 0x02 0 payload actStatus) s

/-- TRACKS (R39). -/
def execTracks (payload : List Byte) (s : State) : Host.Outcome State Fault Refusal :=
  whileRunning (commandFrame 0x03 1 payload (actTracks (payloadByte payload 0).toNat)) s

/-- COUNTS (R164, R170). -/
def execCounts (payload : List Byte) (s : State) : Host.Outcome State Fault Refusal :=
  whileRunning (commandFrame 0x04 0 payload actCounts) s

/-- TAKE_COUNTS (R164, R170). -/
def execTakeCounts (payload : List Byte) (s : State) : Host.Outcome State Fault Refusal :=
  whileRunning (commandFrame 0x05 0 payload actTakeCounts) s

/-- REPORTS (R183). -/
def execReports (payload : List Byte) (s : State) : Host.Outcome State Fault Refusal :=
  whileRunning (commandFrame 0x06 1 payload (actReports (payloadByte payload 0).toNat)) s

/-- STREAM (R184). -/
def execStream (payload : List Byte) (s : State) : Host.Outcome State Fault Refusal :=
  whileRunning (commandFrame 0x07 1 payload (actStream (payloadByte payload 0))) s

/-- SET (R178). -/
def execSetParam (payload : List Byte) (s : State) : Host.Outcome State Fault Refusal :=
  whileRunning (commandFrame 0x08 3 payload (actSet (payloadByte payload 0) (natOfBytes (payload.drop 1)))) s

/-- GET (R178). -/
def execGetParam (payload : List Byte) (s : State) : Host.Outcome State Fault Refusal :=
  whileRunning (commandFrame 0x09 1 payload (actGet (payloadByte payload 0))) s

/-- EXCUSE_ADD (R77 to R79, R81). -/
def execExcuseAdd (payload : List Byte) (s : State) : Host.Outcome State Fault Refusal :=
  whileRunning (commandFrame 0x0A 9 payload (actExcuseAdd (payloadItem payload) (payloadByte payload 8))) s

/-- EXCUSE_DROP (R79, R81). -/
def execExcuseDrop (payload : List Byte) (s : State) : Host.Outcome State Fault Refusal :=
  whileRunning (commandFrame 0x0B 8 payload (actExcuseDrop (payloadItem payload))) s

/-- EXCUSE_LIST (R82). -/
def execExcuseList (payload : List Byte) (s : State) : Host.Outcome State Fault Refusal :=
  whileRunning (commandFrame 0x0C 1 payload (actExcuseList (payloadByte payload 0).toNat)) s

/-- HUSH (R147). -/
def execHush (payload : List Byte) (s : State) : Host.Outcome State Fault Refusal :=
  whileRunning (commandFrame 0x0D 1 payload (actHush (payloadByte payload 0))) s

/-- CADENCE (R156). -/
def execCadence (payload : List Byte) (s : State) : Host.Outcome State Fault Refusal :=
  whileRunning (commandFrame 0x0E 7 payload (actCadence payload)) s

/-- REST (R179). -/
def execRest (payload : List Byte) (s : State) : Host.Outcome State Fault Refusal :=
  whileRunning (commandFrame 0x0F 0 payload actRest) s

/-- RESET_FULL (R180): the reset acts when the response has been sent. -/
def execResetFull (more : List Byte) (s : State) : Host.Outcome State Fault Refusal :=
  whileRunning (commandFrame 0x10 1 (1 :: more) (actReset 1)) s

/-- RESET_ENGINE (R180): the reset acts when the response has been sent. -/
def execResetEngine (more : List Byte) (s : State) : Host.Outcome State Fault Refusal :=
  whileRunning (commandFrame 0x10 1 (2 :: more) (actReset 2)) s

/-- RESET_COUNTS (R180): the reset acts when the response has been sent. -/
def execResetCounts (more : List Byte) (s : State) : Host.Outcome State Fault Refusal :=
  whileRunning (commandFrame 0x10 1 (3 :: more) (actReset 3)) s

/-! ## Transmitter (R175, R184) -/

/-- RESPONSE_SENT (R175, R180). -/
def execResponseSent (pins : StrapPins) (s : State) : Host.Outcome State Fault Refusal := whileRunning (responseEnd pins) s

/-- REPORT_FRAME_SENT (R184). -/
def execReportFrameSent (s : State) : Host.Outcome State Fault Refusal := whileRunning reportEnd s

end Sys2Proof.Machine
end

