-- ==== Sys2Proof/Machine/LineFields.lean ====
section
/-! DEFINITION. The meanings of the rows of the fields of a round: station slots, request field, notice slots (chapters 5 to 7). -/

namespace Sys2Proof.Machine

/-- SLOT_RECEIVED (R93). -/
def execSlotReceived (station : Fin 16) (bits : BitVec 16) (s : State) : Host.Outcome State Fault Refusal :=
  whileRunning (slotEnd station (slotOutcome bits)) s

/-- Sets or clears the clash mark. -/
def putClashMark (mark : Bool) (s : State) : State := s.onLine fun u => { u with clashMark := mark }

/-- The readback of the own slot, compared whole at its end (R97, R98). -/
def readBackOwn (bits : BitVec 16) (s : State) : State :=
  if s.line.state = .SYNCED then
    let s1 := s.onLine fun u => { u with timer := slotLastBit s.station }
    if bits = slotBits s.line.slotWord then putClashMark false s1
    else if s.line.clashMark then clashEntry (lineError s1)
    else putClashMark true (lineError s1)
  else s

/-- OWN_SLOT_READBACK (R97). -/
def execOwnSlotReadback (bits : BitVec 16) (s : State) : Host.Outcome State Fault Refusal := whileRunning (readBackOwn bits) s

/-- The round timer at the first bit time of the request field (R195). -/
def requestFirstBit : Nat := 272

/-- The round timer at the end of the request field (R96). -/
def requestEnd : Nat := requestFirstBit + requestBitTimes

/-- The end of the request field: the request set is handed over, and the grant rule applied (R96, R126). -/
def endRequests (levels : BitVec 20) (s : State) : State :=
  if s.line.state = .SYNCED then
    (s.onLine fun u => { u with timer := requestEnd, requestSet := some (requestSetOf levels) }).onAccess fun a =>
      { a with grant := grantRule s (requestSetOf levels) }
  else s

/-- REQUEST_FIELD_END (R96). -/
def execRequestFieldEnd (levels : BitVec 20) (s : State) : Host.Outcome State Fault Refusal :=
  whileRunning (endRequests levels) s

/-- The round timer at the first bit time of notice slot k (R195). -/
def noticeFirstBit (k : Nat) : Nat := requestEnd + noticeBitTimes * k

/-- The round timer at the last bit time of notice slot k (R195). -/
def noticeLastBit (k : Nat) : Nat := noticeFirstBit k + (noticeBitTimes - 1)

/-- Whether notice slots are read: SYNCED, and CLASHED while AWAKE with timing FOLLOWING (R101 to R103, R116). -/
def readsNotices (s : State) : Bool :=
  s.line.state = .SYNCED ||
    (s.line.state = .CLASHED && s.line.timing = .FOLLOWING && s.supply.dormancy = .AWAKE)

/-- Replaces the round timer. -/
def putTimer (timer : Nat) (s : State) : State := s.onLine fun u => { u with timer := timer }

/-- The start of a notice slot: a SYNCED pedestal with a notice contends with the head of its outbox (R106, R111). -/
def startNotice (slot : Fin 24) (s : State) : State :=
  if readsNotices s then
    let s1 := putTimer (noticeFirstBit slot.val) s
    if s.line.state = .SYNCED then s1.onNotices fun q => { q with inFlight := if q.outbox.isEmpty then .NONE else .PLACING } else s1
  else s

/-- NOTICE_SLOT_START (R111). -/
def execNoticeSlotStart (slot : Fin 24) (s : State) : Host.Outcome State Fault Refusal := whileRunning (startNotice slot) s

/-- The bit times of a notice slot as far as it was read. Fewer than its 720: the slot runs on or is cut, and a bit read back wrong
in them has its outcome at once; the rest is the end of the slot: sent, lost, idle or received (R90, R112 to R119; log entry 31). -/
def endNotice (slot : Fin 24) (levels : List Bool) (s : State) : State :=
  if readsNotices s then
    if levels.length < noticeBitTimes then
      let s1 := putTimer (noticeFirstBit slot.val + (levels.length - 1)) s
      if s.line.state = .SYNCED then readBackNotice (slotData levels) s1 else s1
    else
      let s1 := putTimer (noticeLastBit slot.val) s
      if s.line.state = .SYNCED then slotEndSynced (slotData levels) s1 else receiveSlot (slotData levels) s1
  else s

/-- NOTICE_SLOT_END (R116). -/
def execNoticeSlotEnd (slot : Fin 24) (levels : List Bool) (s : State) : Host.Outcome State Fault Refusal :=
  whileRunning (endNotice slot levels) s

end Sys2Proof.Machine
end

