-- ==== Sys2Proof/Machine/LineTiming.lean ====
section
/-! DEFINITION. The meanings of the rows of line timing: marks, round timer, start marks, LISTEN, stuck lines (chapter 5). -/

namespace Sys2Proof.Machine

/-- Whether marks are classed and followed: SYNCED, and SILENT or CLASHED with timing FOLLOWING (R87, R89). -/
def followsMarks (s : State) : Bool :=
  match s.line.state with
  | .SYNCED => true
  | .SILENT => s.line.timing = .FOLLOWING
  | .CLASHED => s.line.timing = .FOLLOWING
  | .LISTEN => false
  | .LONE => false

/-- Whether round starts come from the own timer reaching 20,000, LISTEN apart: LONE, and SILENT or CLASHED with timing FREE
(R87). -/
def keepsOwnTime (s : State) : Bool :=
  match s.line.state with
  | .LONE => true
  | .SILENT => s.line.timing = .FREE
  | .CLASHED => s.line.timing = .FREE
  | .LISTEN => false
  | .SYNCED => false

/-- The runs at the end of a mark, its first recessive bit time (R99, R100; log entry 18). -/
def runEnds (s : State) : State :=
  s.onLine fun u => { u with dominantRun := 0, recessiveRun := if keepsOwnTime s then 1 else u.recessiveRun }

/-- The end of a mark: a start mark or a framing error where marks are followed, the end of LISTEN, and nothing but the runs
where they are not (R87, R89, R91, R120). -/
def endMark (began length : Nat) (input : RoundInput) (s : State) : State :=
  if length < 8 then s
  else if followsMarks s then
    let s1 := releaseDriver (runEnds s)
    if began < Config.quietTail then roundStart .framing length input (framingError began s1)
    else roundStart .startMark length input s1
  else if s.line.state = .LISTEN then
    roundStart .joined length input ((runEnds s).onLine fun u => { u with state := .SYNCED })
  else runEnds s

/-- MARK_END (R89). -/
def execMarkEnd (began length : Nat) (input : RoundInput) (s : State) : Host.Outcome State Fault Refusal :=
  whileRunning (endMark began length input) s

/-- The listen time reaches 60,000: SYNCED with the round timer at 20,000 (R91). The start mark, or holding back, follows as the
command START_MARK_SEND (DESIGN CHOICE, log entry 30). -/
def endListen (s : State) : State :=
  s.onLine fun u => { u with state := .SYNCED, timer := Config.roundLength, listenTime := Config.listenLimit }

/-- The listen time when the timer reaches 20,000 (R91). -/
def listenTimeAt (u : LineUnit) : Nat := u.listenTime + (Config.roundLength - u.timer)

/-- The round timer reaches 20,000 (R87, R91). -/
def expireTimer (input : RoundInput) (s : State) : State :=
  if s.line.state = .LISTEN then
    if Config.listenLimit ≤ listenTimeAt s.line then endListen s
    else roundStart .timer 0 input (s.onLine fun u => { u with listenTime := listenTimeAt u })
  else if keepsOwnTime s then roundStart .timer 0 input s
  else s

/-- ROUND_TIMER_EXPIRY (R87). -/
def execRoundTimerExpiry (input : RoundInput) (s : State) : Host.Outcome State Fault Refusal :=
  whileRunning (expireTimer input) s

/-- Whether the pedestal is SILENT or CLASHED, the states that have a timing (R101). -/
def hasTiming (s : State) : Bool := s.line.state = .SILENT || s.line.state = .CLASHED

/-- The timer reaches 22,428 with no mark: a round start with the timer set to 2,428 (R87). -/
def timeOutFollowing (input : RoundInput) (s : State) : State :=
  if hasTiming s && s.line.timing = .FOLLOWING then
    roundStart .timer (Config.followingLimit - Config.roundLength) input s
  else s

/-- FOLLOWING_TIMEOUT (R87). -/
def execFollowingTimeout (input : RoundInput) (s : State) : Host.Outcome State Fault Refusal :=
  whileRunning (timeOutFollowing input) s

/-- The timer of a SYNCED pedestal reaches 20,000: it begins its start mark, or holds back on a dominant line (R88). -/
def reachRoundEnd (line : Level) (s : State) : State :=
  if s.line.state = .SYNCED then
    s.onLine fun u =>
      { u with
        timer := Config.roundLength
        startMark := match line with
          | .recessive => .sending
          | .dominant => .heldBack }
  else s

/-- START_MARK_SEND (R88). -/
def execStartMarkSend (line : Level) (s : State) : Host.Outcome State Fault Refusal := whileRunning (reachRoundEnd line) s

/-- The run that held the pedestal back ends too short to be a mark: it begins its own start mark (R88). -/
def sendAfterRun (s : State) : State :=
  if s.line.state = .SYNCED && s.line.startMark = .heldBack then
    s.onLine fun u => { u with startMark := .sending, dominantRun := 0 }
  else s

/-- RUN_TOO_SHORT (R88). -/
def execRunTooShort (s : State) : Host.Outcome State Fault Refusal := whileRunning sendAfterRun s

/-- LISTEN_TIMEOUT (R91). -/
def execListenTimeout (s : State) : Host.Outcome State Fault Refusal :=
  whileRunning (fun s => if s.line.state = .LISTEN then endListen s else s) s

/-- A timer that stands at 20,000 or more as own time begins gives a round start at once (R99, R101). -/
def startIfDue (timer : Nat) (input : RoundInput) (s : State) : State :=
  if Config.roundLength ≤ timer then roundStart .timer 0 input s else s

/-- The dominant run reaches 200 in SYNCED or LISTEN (R99). -/
def stickLine (timer : Nat) (input : RoundInput) (s : State) : State :=
  if s.line.state = .SYNCED || s.line.state = .LISTEN then startIfDue timer input (loneEntry timer s) else s

/-- LINE_STUCK (R99). -/
def execLineStuck (timer : Nat) (input : RoundInput) (s : State) : Host.Outcome State Fault Refusal :=
  whileRunning (stickLine timer input) s

/-- The dominant run reaches 200 in SILENT or CLASHED with timing FOLLOWING (R101). -/
def freeTiming (timer : Nat) (input : RoundInput) (s : State) : State :=
  if hasTiming s && s.line.timing = .FOLLOWING then startIfDue timer input (freeEntry timer s) else s

/-- LINE_STUCK_TIMING_FREE (R101). -/
def execLineStuckTimingFree (timer : Nat) (input : RoundInput) (s : State) : Host.Outcome State Fault Refusal :=
  whileRunning (freeTiming timer input) s

/-- The runs when the recessive run reaches 20,000 (R100, R101; log entry 18). -/
def lineQuiet (s : State) : State :=
  s.onLine fun u => { u with dominantRun := 0, recessiveRun := Config.roundLength }

/-- The recessive run reaches 20,000 in LONE (R100). -/
def leaveLone (s : State) : State :=
  if s.line.state = .LONE then
    listenEntry (makeRecord (.FAULT .line .CLEARED) (abandonWindow (lineQuiet s)))
  else s

/-- LONE_RECOVERY (R100). -/
def execLoneRecovery (s : State) : Host.Outcome State Fault Refusal := whileRunning leaveLone s

/-- The recessive run reaches 20,000 with timing FREE (R101). -/
def followAgain (s : State) : State :=
  if hasTiming s && s.line.timing = .FREE then
    makeRecord (.FAULT .line .CLEARED) ((lineQuiet s).onLine fun u => { u with timing := .FOLLOWING })
  else s

/-- TIMING_FOLLOWING_RESTORED (R101). -/
def execTimingFollowingRestored (s : State) : Host.Outcome State Fault Refusal := whileRunning followAgain s

end Sys2Proof.Machine
end

