-- ==== Sys2Proof/Machine/Pedestal.lean ====
section
/-! DEFINITION. The meanings of the rows of the lamps, the beams and the CLEAR button (chapters 8 and 10). -/

namespace Sys2Proof.Machine

/-! ## Lamps (R150) -/

/-- The flashing of a HUSHED lane changes between lit and dark (R150). -/
def toggleFlash (l : LaneSide) (s : State) : State :=
  if hasLane s l then
    match laneState s l with
    | .HUSHED lit => putLane l (.HUSHED (!lit)) s
    | .ARMED => s
    | .SOUNDING _ => s
  else s

/-- FLASH_TOGGLE (R150). -/
def execFlashToggle (lane : LaneSide) (s : State) : Host.Outcome State Fault Refusal := whileRunning (toggleFlash lane) s

/-! ## Beams (R165 to R168) -/

/-- A beam filter after a sample (R165). -/
def filterBeam (sample : Beam) (f : BeamFilter) : BeamFilter :=
  { confirmed := if f.latest = some sample then sample else f.confirmed, latest := some sample }

/-- The footfall machine after a change, from the confirmed states after it (R167). -/
def footfallMove (hall street : Beam) : Footfall → Footfall
  | .CLEAR => match hall, street with
    | .CLEAR, .CLEAR => .CLEAR
    | .BROKEN, .CLEAR => .H1
    | .CLEAR, .BROKEN => .S1
    | .BROKEN, .BROKEN => .X
  | .H1 => match hall, street with
    | .CLEAR, .CLEAR => .CLEAR
    | .BROKEN, .CLEAR => .H1
    | .CLEAR, .BROKEN => .H3
    | .BROKEN, .BROKEN => .H2
  | .H2 => match hall, street with
    | .CLEAR, .CLEAR => .CLEAR
    | .BROKEN, .CLEAR => .H1
    | .CLEAR, .BROKEN => .H3
    | .BROKEN, .BROKEN => .H2
  | .H3 => match hall, street with
    | .CLEAR, .CLEAR => .CLEAR
    | .BROKEN, .CLEAR => .H1
    | .CLEAR, .BROKEN => .H3
    | .BROKEN, .BROKEN => .H2
  | .S1 => match hall, street with
    | .CLEAR, .CLEAR => .CLEAR
    | .BROKEN, .CLEAR => .S3
    | .CLEAR, .BROKEN => .S1
    | .BROKEN, .BROKEN => .S2
  | .S2 => match hall, street with
    | .CLEAR, .CLEAR => .CLEAR
    | .BROKEN, .CLEAR => .S3
    | .CLEAR, .BROKEN => .S1
    | .BROKEN, .BROKEN => .S2
  | .S3 => match hall, street with
    | .CLEAR, .CLEAR => .CLEAR
    | .BROKEN, .CLEAR => .S3
    | .CLEAR, .BROKEN => .S1
    | .BROKEN, .BROKEN => .S2
  | .X => match hall, street with
    | .CLEAR, .CLEAR => .CLEAR
    | .BROKEN, .CLEAR => .X
    | .CLEAR, .BROKEN => .X
    | .BROKEN, .BROKEN => .X

/-- The count that a move makes: a beam exit from H3 to CLEAR, a beam entry from S3 to CLEAR (R167, R169). -/
def countMove (before after : Footfall) (c : LaneCounts) : LaneCounts :=
  if after ≠ .CLEAR then c
  else if before = .H3 then { c with beamExits := c.beamExits + 1 }
  else if before = .S3 then { c with beamEntries := c.beamEntries + 1 }
  else c

/-- A beam break is handed on: last-broken round, cadence, dormant timer, wake (R61, R132, R133, R166, R191, R194). -/
def beamBreak (s : State) : State :=
  let s1 := s.onTrack fun u => { u with rightBroken := some s.now }
  if s1.supply.dormancy = .DORMANT then wake .BRISK s1 else dormantTimerZero (stirAccess s1)

/-- Whether a filter makes a change to BROKEN. -/
def breaks (before after : BeamFilter) : Bool := before.confirmed = .CLEAR && after.confirmed = .BROKEN

/-- One sampling event of both beams (R164 to R168). -/
def sampleBeams (hall street : Beam) (s : State) : State :=
  if hasRight s then
    let h := filterBeam hall s.beams.hall
    let t := filterBeam street s.beams.street
    let s1 := s.onBeams fun b => { b with hall := h, street := t }
    if h.confirmed = s.beams.hall.confirmed ∧ t.confirmed = s.beams.street.confirmed then s1
    else
      let after := footfallMove h.confirmed t.confirmed s.beams.footfall
      let s2 := s1.onBeams fun b => { b with footfall := after, counts := countMove s.beams.footfall after b.counts }
      if breaks s.beams.hall h || breaks s.beams.street t then beamBreak s2 else s2
  else s

/-- BEAM_CHANGE (R166): the sample that confirms a change. -/
def execBeamChange (hall street : Beam) (s : State) : Host.Outcome State Fault Refusal :=
  whileRunning (sampleBeams hall street) s

/-- BEAM_SAMPLE (R165). -/
def execBeamSample (hall street : Beam) (s : State) : Host.Outcome State Fault Refusal :=
  whileRunning (fun s => sampleBeams hall street s) s

/-! ## CLEAR (R145, R146) -/

/-- The CLEAR filter after a sample (R145). -/
def filterClear (pressed : Bool) (f : ClearFilter) : ClearFilter :=
  { pressed := if f.latest = some pressed then pressed else f.pressed, latest := some pressed }

/-- One sample of the CLEAR input; an accepted press hushes both machines (R145, R146). -/
def sampleClear (pressed : Bool) (s : State) : State :=
  let f := filterClear pressed s.lanes.clear
  let s1 := s.onLanes fun u => { u with clear := f }
  if f.pressed && !s.lanes.clear.pressed then hushBoth .STAFF s1 else s1

/-- CLEAR_PRESS (R146): the pressed sample that accepts a press. -/
def execClearPress (s : State) : Host.Outcome State Fault Refusal := whileRunning (sampleClear true) s

/-- CLEAR_SAMPLE (R145). -/
def execClearSample (pressed : Bool) (s : State) : Host.Outcome State Fault Refusal :=
  whileRunning (fun s => sampleClear pressed s) s

end Sys2Proof.Machine
end

