-- ==== Sys2Proof/Machine/Reset.lean ====
section
/-! DEFINITION. The meanings of the POWER-ON rows (chapter 12). -/

namespace Sys2Proof.Machine

/-- A source of POWER-ON appears: drivers, coils and sounder are quiet, the host link is recessive and takes no byte, and the
source is noted. The rest of the state waits for the release, which sets it (R3, R174, R186, R187; log entry 7). -/
def holdInReset (source : PowerSource) (s : State) : State :=
  let s1 := soundStop (abandonWindow (releaseDriver s))
  let s2 := s1.onSounder fun u => { u with output := 0 }
  let s3 := s2.onHost fun h =>
    { h with receiver := .HUNT, buffer := State.reset.host.buffer, outstanding := none, transmitter := .IDLE }
  s3.onSupply fun u =>
    { u with heldBy := if u.heldBy.contains source then u.heldBy else u.heldBy ++ [source] }

/-- POWER_ON_HOLD (R187). -/
def execPowerOnHold (source : PowerSource) (s : State) : Host.Outcome State Fault Refusal := .next (holdInReset source s)

/-- POWER_ON (R187 to R189): the release, with the cause of the source present last and the straps as the pins stand. -/
def execPowerOn (last : PowerSource) (pins : StrapPins) (s : State) : Host.Outcome State Fault Refusal :=
  .next (powerOnState (causeOf last) (readStraps pins) s)

end Sys2Proof.Machine
end

