-- ==== Sys2Proof/Machine/RoundParts.lean ====
section
/-! DEFINITION. The meanings of the rows that are parts of a round start (log entry 8). A round start carries its parts out whole;
commanded alone, a part acts on what is due, which is nothing right after a round start. -/

namespace Sys2Proof.Machine

/-- CALM_ENTRY (R132). -/
def execCalmEntry (s : State) : Host.Outcome State Fault Refusal := whileRunning calmTest s

/-- TRACK_EXPIRY (R36). -/
def execTrackExpiry (s : State) : Host.Outcome State Fault Refusal := whileRunning expireTracks s

/-- CACHE_AGEING (R30). -/
def execCacheAgeing (s : State) : Host.Outcome State Fault Refusal := whileRunning ageCache s

/-- STALE_NOTICE (R108). -/
def execStaleNotice (s : State) : Host.Outcome State Fault Refusal := whileRunning dropStale s

/-- Whether the minute counter would reach 3,000 with its next advance (R80; log entry 12). -/
def minuteDue (s : State) : Bool := Config.minuteRounds ≤ s.verdict.minute + 1

/-- MINUTE_BOUNDARY (R80). -/
def execMinuteBoundary (s : State) : Host.Outcome State Fault Refusal :=
  whileRunning (fun s => if minuteDue s then minuteTurn s else s) s

/-- Whether the sound timer of a machine reaches 0 with its next decrease (R144; log entry 12). -/
def soundLimitDue (l : LaneSide) (s : State) : Bool :=
  hasLane s l &&
    match laneState s l with
    | .SOUNDING t => t ≤ 1
    | .ARMED => false
    | .HUSHED _ => false

/-- SOUND_LIMIT_EXPIRY (R144). -/
def execSoundLimitExpiry (lane : LaneSide) (s : State) : Host.Outcome State Fault Refusal :=
  whileRunning (fun s => if soundLimitDue lane s then hushLane lane .LIMIT s else s) s

/-- Whether the round part of the dormant timer would reach 3,000 with its next advance (R191; log entry 12). -/
def quietMinuteDue (s : State) : Bool :=
  s.supply.dormancy = .AWAKE && quiet s && Config.minuteRounds ≤ s.supply.dormantRounds + 1

/-- QUIET_MINUTE (R191). -/
def execQuietMinute (s : State) : Host.Outcome State Fault Refusal :=
  whileRunning (fun s => if quietMinuteDue s then pendingTest (quietMinuteTurn s) else s) s

end Sys2Proof.Machine
end

