-- ==== Sys2Proof/Machine/SounderRows.lean ====
section
/-! DEFINITION. The synthesis of the sounder and the meanings of its rows (chapter 9). -/

namespace Sys2Proof.Machine

/-- sin(2π × j / 256) × 2^20 to the nearest whole number, for j = 0..64 (R160; log entry 24). -/
def quarterSine : List Nat :=
  [0, 25733, 51451, 77138, 102778, 128357, 153858, 179267, 204567, 229744, 254783, 279669, 304386] ++
  [328919, 353255, 377377, 401273, 424926, 448324, 471452, 494295, 516841, 539076, 560986, 582558, 603779] ++
  [624636, 645117, 665210, 684901, 704181, 723036, 741455, 759428, 776944, 793991, 810560, 826641, 842224] ++
  [857300, 871859, 885893, 899394, 912352, 924761, 936614, 947901, 958618, 968758, 978314, 987281, 995652] ++
  [1003425, 1010592, 1017151, 1023098, 1028428, 1033138, 1037227, 1040690, 1043527, 1045735, 1047313, 1048260, 1048576]

/-- The place of an index 0..127 in the quarter sine. -/
def quarterIndex (half : Nat) : Nat := if half ≤ 64 then half else 128 - half

/-- A × |sin(2π × index / 256)|, rounded to nearest (R160). -/
def sineMagnitude (amplitude half : Nat) : Nat := (amplitude * quarterSine.getD (quarterIndex half) 0 + 2 ^ 19) / 2 ^ 20

/-- round(A × sin(2π × index / 256)) for an index 0..255, halves away from zero (R160). -/
def waveTerm (amplitude index : Nat) : Int :=
  if index < 128 then (sineMagnitude amplitude index : Int) else -(sineMagnitude amplitude (index - 128) : Int)

/-- The index of an accumulator value: divided by 256 with the fraction dropped (R160). -/
def sineIndex (acc : BitVec 16) : Nat := acc.toNat / 256

/-- The term of one tone: none gives 0 (R160, R162). -/
def toneTerm (amplitude : Nat) (n : Option (BitVec 16)) (acc : BitVec 16) : Int :=
  match n with
  | none => 0
  | some _ => waveTerm amplitude (sineIndex acc)

/-- An accumulator after a sample (R160). -/
def advance (n : Option (BitVec 16)) (acc : BitVec 16) : BitVec 16 :=
  match n with
  | none => acc
  | some x => acc + x

/-- The sample that the sounder gives: the sum of the two terms, held within the output range (R157, R158, R162). -/
def sampleOf (u : Sounder) : Int :=
  match u.latched with
  | none => 0
  | some e =>
    match e.amplitude with
    | none => 0
    | some a => clampInt (-2048) 2047 (toneTerm a e.nA u.accA + toneTerm a e.nB u.accB)

/-- The sounder after it has given a sample (R160). -/
def afterSample (u : Sounder) : Sounder :=
  match u.latched with
  | none => { u with output := 0, samplesLeft := u.samplesLeft - 1 }
  | some e =>
    { u with
      output := sampleOf u
      samplesLeft := u.samplesLeft - 1
      accA := advance e.nA u.accA
      accB := advance e.nB u.accB }

/-- Whether the last sample of a latched entry has been given (R158). -/
def entryDone (u : Sounder) : Bool := u.playing && u.latched.isSome && u.samplesLeft = 0

/-- Whether an end marker at entry 0 is due to be looked at again (R158). -/
def recheckDue (u : Sounder) : Bool := u.playing && u.latched.isNone && u.samplesLeft = 0

/-- The next entry starts when the latched one is done (R158). -/
def entryEnd (s : State) : State :=
  if entryDone s.sounder then s.onSounder fun u => entryStart s.params.volume (u.position + 1) u else s

/-- Entry 0 is read again when that is due (R158). -/
def recheck (s : State) : State :=
  if recheckDue s.sounder then s.onSounder fun u => entryStart s.params.volume 0 u else s

/-- SOUNDER_ENTRY_END (R158). -/
def execSounderEntryEnd (s : State) : Host.Outcome State Fault Refusal := whileRunning entryEnd s

/-- SOUNDER_END_MARKER_RECHECK (R158). -/
def execSounderEndMarkerRecheck (s : State) : Host.Outcome State Fault Refusal := whileRunning recheck s

/-- One sample time: an entry start that is due comes first, then the sample is given; 0 in IDLE (R157, R158, R160, R162). -/
def giveSample (s : State) : State :=
  if s.sounder.playing then (recheck (entryEnd s)).onSounder afterSample
  else s.onSounder fun u => { u with output := 0 }

/-- SOUNDER_SAMPLE (R160). -/
def execSounderSample (s : State) : Host.Outcome State Fault Refusal := whileRunning giveSample s

end Sys2Proof.Machine
end

