-- ==== Sys2Proof/Machine/Dispatch.lean ====
section
/-! DEFINITION. The meaning of every command, one arm for each row of spec/opcode_table.json. -/

namespace Sys2Proof.Machine

def exec (i : Instr) (s : State) : Host.Outcome State Fault Refusal :=
  match i with
  | .powerOnHold source => Sys2Proof.Machine.execPowerOnHold source s
  | .powerOn last pins => Sys2Proof.Machine.execPowerOn last pins s
  | .markEnd began length input => Sys2Proof.Machine.execMarkEnd began length input s
  | .roundTimerExpiry input => Sys2Proof.Machine.execRoundTimerExpiry input s
  | .followingTimeout input => Sys2Proof.Machine.execFollowingTimeout input s
  | .startMarkSend line => Sys2Proof.Machine.execStartMarkSend line s
  | .calmEntry => Sys2Proof.Machine.execCalmEntry s
  | .trackExpiry => Sys2Proof.Machine.execTrackExpiry s
  | .cacheAgeing => Sys2Proof.Machine.execCacheAgeing s
  | .staleNotice => Sys2Proof.Machine.execStaleNotice s
  | .minuteBoundary => Sys2Proof.Machine.execMinuteBoundary s
  | .soundLimitExpiry lane => Sys2Proof.Machine.execSoundLimitExpiry lane s
  | .quietMinute => Sys2Proof.Machine.execQuietMinute s
  | .listenTimeout => Sys2Proof.Machine.execListenTimeout s
  | .lineStuck timer input => Sys2Proof.Machine.execLineStuck timer input s
  | .lineStuckTimingFree timer input => Sys2Proof.Machine.execLineStuckTimingFree timer input s
  | .loneRecovery => Sys2Proof.Machine.execLoneRecovery s
  | .timingFollowingRestored => Sys2Proof.Machine.execTimingFollowingRestored s
  | .slotReceived station bits => Sys2Proof.Machine.execSlotReceived station bits s
  | .ownSlotReadback bits => Sys2Proof.Machine.execOwnSlotReadback bits s
  | .requestFieldEnd levels => Sys2Proof.Machine.execRequestFieldEnd levels s
  | .noticeSlotStart slot => Sys2Proof.Machine.execNoticeSlotStart slot s
  | .noticeSlotEnd slot levels => Sys2Proof.Machine.execNoticeSlotEnd slot levels s
  | .replyWindowEnd reception sense => Sys2Proof.Machine.execReplyWindowEnd reception sense s
  | .followCallEnd reception sense => Sys2Proof.Machine.execFollowCallEnd reception sense s
  | .halfSweepTimeLimit sense => Sys2Proof.Machine.execHalfSweepTimeLimit sense s
  | .sounderEntryEnd => Sys2Proof.Machine.execSounderEntryEnd s
  | .sounderEndMarkerRecheck => Sys2Proof.Machine.execSounderEndMarkerRecheck s
  | .flashToggle lane => Sys2Proof.Machine.execFlashToggle lane s
  | .beamChange hall street => Sys2Proof.Machine.execBeamChange hall street s
  | .clearPress => Sys2Proof.Machine.execClearPress s
  | .hostFrameBad bytes => Sys2Proof.Machine.execHostFrameBad bytes s
  | .hostByteGapTimeout before late => Sys2Proof.Machine.execHostByteGapTimeout before late s
  | .hostFrameBusy code payload => Sys2Proof.Machine.execHostFrameBusy code payload s
  | .unknownCommand code payload => Sys2Proof.Machine.execUnknownCommand code payload s
  | .identify payload => Sys2Proof.Machine.execIdentify payload s
  | .status payload => Sys2Proof.Machine.execStatus payload s
  | .tracks payload => Sys2Proof.Machine.execTracks payload s
  | .counts payload => Sys2Proof.Machine.execCounts payload s
  | .takeCounts payload => Sys2Proof.Machine.execTakeCounts payload s
  | .reports payload => Sys2Proof.Machine.execReports payload s
  | .stream payload => Sys2Proof.Machine.execStream payload s
  | .setParam payload => Sys2Proof.Machine.execSetParam payload s
  | .getParam payload => Sys2Proof.Machine.execGetParam payload s
  | .excuseAdd payload => Sys2Proof.Machine.execExcuseAdd payload s
  | .excuseDrop payload => Sys2Proof.Machine.execExcuseDrop payload s
  | .excuseList payload => Sys2Proof.Machine.execExcuseList payload s
  | .hush payload => Sys2Proof.Machine.execHush payload s
  | .cadence payload => Sys2Proof.Machine.execCadence payload s
  | .rest payload => Sys2Proof.Machine.execRest payload s
  | .resetFull more => Sys2Proof.Machine.execResetFull more s
  | .resetEngine more => Sys2Proof.Machine.execResetEngine more s
  | .resetCounts more => Sys2Proof.Machine.execResetCounts more s
  | .responseSent pins => Sys2Proof.Machine.execResponseSent pins s
  | .reportFrameSent => Sys2Proof.Machine.execReportFrameSent s
  | .runTooShort => Sys2Proof.Machine.execRunTooShort s
  | .beamSample hall street => Sys2Proof.Machine.execBeamSample hall street s
  | .clearSample pressed => Sys2Proof.Machine.execClearSample pressed s
  | .sounderSample => Sys2Proof.Machine.execSounderSample s

end Sys2Proof.Machine
end

