-- ==== Sys2Proof/Safety.lean ====
section
/-! DEFINITION. What the statements speak of: the state in which a host command is taken, the host port after a response, and the
invariants that every step keeps. -/

namespace Sys2Proof.Machine

/-! ## Host commands (R174, R175) -/

/-- A complete frame is taken as a command at once: the part runs, is AWAKE and has no response outstanding (R175, R194). -/
abbrev takesCommand (s : State) : Prop :=
  heldInReset s = false ∧ s.supply.dormancy = .AWAKE ∧ s.host.outstanding = none

/-- The complete frame that a host command row stands for (R173, R200). -/
def hostFrameOf : Instr → Option Frame
  | .hostFrameBusy code payload => some { code := code, payload := payload }
  | .unknownCommand code payload => some { code := code, payload := payload }
  | .identify payload => some { code := 0x01, payload := payload }
  | .status payload => some { code := 0x02, payload := payload }
  | .tracks payload => some { code := 0x03, payload := payload }
  | .counts payload => some { code := 0x04, payload := payload }
  | .takeCounts payload => some { code := 0x05, payload := payload }
  | .reports payload => some { code := 0x06, payload := payload }
  | .stream payload => some { code := 0x07, payload := payload }
  | .setParam payload => some { code := 0x08, payload := payload }
  | .getParam payload => some { code := 0x09, payload := payload }
  | .excuseAdd payload => some { code := 0x0A, payload := payload }
  | .excuseDrop payload => some { code := 0x0B, payload := payload }
  | .excuseList payload => some { code := 0x0C, payload := payload }
  | .hush payload => some { code := 0x0D, payload := payload }
  | .cadence payload => some { code := 0x0E, payload := payload }
  | .rest payload => some { code := 0x0F, payload := payload }
  | .resetFull more => some { code := 0x10, payload := 1 :: more }
  | .resetEngine more => some { code := 0x10, payload := 2 :: more }
  | .resetCounts more => some { code := 0x10, payload := 3 :: more }
  | _ => none

/-- The host port `h` after the complete frame `f`, answered by `r` (R174, R175). -/
def answered (f : Frame) (r : Response) (h : HostPort) : HostPort :=
  { h with
    receiver := .HUNT
    buffer := { length := f.payload.length, code := f.code, payload := f.payload }
    outstanding := some r
    transmitter := if h.transmitter = .IDLE then .SENDING_RESPONSE else h.transmitter }

/-- The ring and the error counts after a record is made: it enters last, or is lost and counted (R181). -/
def recorded (now : Round) (body : ReportBody) (h : HostPort) : HostPort :=
  if h.ring.length < Config.ringCapacity then
    { h with
      ring := h.ring ++ [{ stamp := now, body := body }]
      transmitter :=
        if h.streaming ∧ h.transmitter = .IDLE ∧ h.outstanding = none then .SENDING_REPORT else h.transmitter }
  else { h with errors := { h.errors with reportLosses := satSucc h.errors.reportLosses } }

/-! ## Round starts (R87) -/

/-- No DORMANT entry by the dormant timer can be made at the next round start (R191). -/
abbrev restNotDue (s : State) : Prop :=
  s.supply.dormancy = .DORMANT ∨ (s.supply.pendingEntry = false ∧ s.supply.dormantRounds + 1 < Config.minuteRounds)

/-- The verdict unit after the minute counter has advanced with the round count (R80). -/
def minuteAdvanced (v : VerdictUnit) : VerdictUnit :=
  if v.minute + 1 < Config.minuteRounds then { v with minute := v.minute + 1 }
  else
    { minute := 0
      excuses := (v.excuses.map fun e => { e with life := e.life - 1 }).filter fun e => e.life ≠ 0 }

/-- The slot table after the slot times of the stations that `missed` names have not passed: NOT RECEIVED for each of them but
the own station (R93). -/
def slotsMissed (missed : Nat → Prop) [DecidablePred missed] (s : State) : Vector SlotOutcome 16 :=
  Vector.ofFn fun j : Fin 16 =>
    if j.val ≠ s.supply.straps.station.val ∧ missed j.val then .NOT_RECEIVED else s.line.slots[j]

/-- The calm values held after the slot times of the stations that `missed` names have not passed: CALM for each of them within
reach (R94, R134; the model's choice, log entries 11 and 35). -/
def calmMissed (missed : Nat → Prop) [DecidablePred missed] (s : State) : Vector Cadence 16 :=
  Vector.ofFn fun j : Fin 16 => if withinReach s j = true ∧ missed j.val then .CALM else s.access.peerCalm[j]

/-- What every round start leaves, from `s` before it to `t` after it: one round more, the timer as set, no request set and no
grant, the minute counter advanced, the right lane's last-broken round kept up, the station slots that the timer has passed
already missed, and the frame: what no round start touches. Without a DORMANT entry at that round start the line unit changes in
nothing else but the field class and the slot word (R61, R80, R87, R92, R93, R96, R127, R129; log entry 35). -/
structure RoundBegun (timer : Nat) (s t : State) : Prop where
  round : t.line.round = s.line.round + 1
  timerSet : t.line.timer = timer
  requestSet : t.line.requestSet = none
  grant : t.access.grant = false
  verdict : t.verdict = minuteAdvanced s.verdict
  rightBroken : t.track.rightBroken = if beamBroken s then some (s.line.round + 1) else s.track.rightBroken
  leftBroken : t.track.leftBroken = s.track.leftBroken
  slotWord :
    (t.line.slotWord.hall = if hasRight s then s.beams.hall.confirmed else .CLEAR) ∧
      (t.line.slotWord.street = if hasRight s then s.beams.street.confirmed else .CLEAR) ∧
      t.line.slotWord.calm = t.access.cadence
  lineKept :
    t.line.slots = slotsMissed (fun n => 31 + 16 * n < timer) s ∧ t.line.listenTime = s.line.listenTime ∧
      t.line.dominantRun = s.line.dominantRun ∧ t.line.recessiveRun = s.line.recessiveRun ∧
      t.line.clashMark = s.line.clashMark
  lineWithoutRest : restNotDue s →
    t.line =
        { s.line with
          round := s.line.round + 1, timer := timer, requestSet := none
          slots := slotsMissed (fun n => 31 + 16 * n < timer) s
          fieldClass := t.line.fieldClass, slotWord := t.line.slotWord } ∧
      t.line.slotWord.fieldClass = t.line.fieldClass ∧ t.supply.dormancy = s.supply.dormancy ∧
      t.notices.inFlight = s.notices.inFlight
  calmValues : t.access.peerCalm = calmMissed (fun n => 31 + 16 * n < timer) s
  lanesKept : t.lanes.clear = s.lanes.clear
  sounderKept : t.sounder.table = s.sounder.table ∧ t.sounder.output = s.sounder.output
  beamsKept :
    t.beams.hall = s.beams.hall ∧ t.beams.street = s.beams.street ∧ t.beams.footfall = s.beams.footfall ∧
      t.beams.counts.beamExits = s.beams.counts.beamExits ∧ t.beams.counts.beamEntries = s.beams.counts.beamEntries
  hostKept :
    t.host.receiver = s.host.receiver ∧ t.host.buffer = s.host.buffer ∧ t.host.outstanding = s.host.outstanding ∧
      t.host.params = s.host.params ∧ t.host.streaming = s.host.streaming ∧
      t.host.errors.lineErrors = s.host.errors.lineErrors ∧ t.host.errors.noticeCrc = s.host.errors.noticeCrc ∧
      t.host.errors.evictions = s.host.errors.evictions ∧ t.host.errors.hostFrames = s.host.errors.hostFrames
  supplyKept :
    t.supply.heldBy = s.supply.heldBy ∧ t.supply.straps = s.supply.straps ∧ t.supply.cause = s.supply.cause
  queueKept : t.pending = s.pending

/-- The machine of a lane after its confirmed peer code has been set to ABSENT: a HUSHED machine re-arms when its lane is not
occupied (R143, R148). -/
def afterPeerLost (s : State) (l : LaneSide) : LaneState :=
  if hasLane s l = true ∧ isHushed (laneState s l) = true ∧ (peerRecord s l).confirmed ≠ .ABSENT ∧ occupied s l = false then .ARMED
  else laneState s l

/-- The lane unit after both peer codes have been set to ABSENT (R143, R148). -/
def lanesAfterPeersLost (s : State) : LaneUnit :=
  { s.lanes with left := afterPeerLost s .left, right := afterPeerLost s .right }

/-- A peer code record with nothing received. -/
def noPeer : PeerRecord := { confirmed := .ABSENT, lastSeen := none }

/-! ## Lanes and the sounder (R147, R148, R157) -/

/-- The sounder when no lane machine sounds any more: IDLE, its play position and latched entry cleared (R157), and its
accumulators at 0 (R163, and after a hush the model's choice, log entry 36). -/
def silenced (u : Sounder) : Sounder :=
  { u with playing := false, position := 0, samplesLeft := 0, latched := none, accA := 0, accB := 0 }

/-- What a SOUNDING machine becomes when it is hushed: ARMED at once when its lane is not occupied and its peer code is neither
SOUND nor HUSH-OCC, else HUSHED with its lamp lit (R148, R150). -/
def hushOutcome (s : State) (l : LaneSide) : LaneState :=
  if occupied s l = false ∧ (peerRecord s l).confirmed ≠ .code .SOUND ∧ (peerRecord s l).confirmed ≠ .code .HUSH_OCC then .ARMED
  else .HUSHED true

/-- The part after every SOUNDING machine that `named` names is hushed for `cause`: its lane report is made, left machine first,
and the sounder stops when no machine is left SOUNDING (R144, R146 to R148, R151, R152, R157). -/
def hushed (named : LaneSide → Bool) (cause : LaneCause) (s : State) : State :=
  let quiets (l : LaneSide) : Bool := named l && sounds s l
  let report (l : LaneSide) (h : HostPort) : HostPort :=
    if quiets l then recorded s.line.round (.LANE (laneNumber s l) false cause) h else h
  { s with
    lanes :=
      { s.lanes with
        left := if quiets .left then hushOutcome s .left else s.lanes.left
        right := if quiets .right then hushOutcome s .right else s.lanes.right }
    sounder :=
      if (quiets .left || quiets .right) && !(sounds s .left && !named .left) && !(sounds s .right && !named .right) then
        silenced s.sounder
      else s.sounder
    host := report .right (report .left s.host) }

/-! ## DORMANT entry and wake (R103, R192, R194) -/

/-- The part after DORMANT entry (R192). -/
def rested (s : State) : State :=
  { s with
    field := { s.field with window := none }
    track := { s.track with table := [], cache := [] }
    line :=
      { s.line with
        state := if s.line.state = .CLASHED then .CLASHED else .SILENT
        timing := .FOLLOWING, requestSet := none, startMark := .idle, peerLeft := noPeer, peerRight := noPeer
        fieldClass := .FRESH, noticeClass := .FRESH }
    access := { s.access with grant := false }
    notices := { outbox := [], inFlight := .NONE }
    lanes := { s.lanes with left := .ARMED, right := .ARMED }
    sounder := silenced s.sounder
    supply := { s.supply with dormancy := .DORMANT, dormantRounds := 0, quietMinutes := 0, pendingEntry := false } }

/-- A pedestal that is not CLASHED after a wake: LISTEN, with the cadence by the source (R91, R194). -/
def woken (cadence : Cadence) (s : State) : State :=
  { s with
    line :=
      { s.line with
        state := .LISTEN, timing := .FOLLOWING, listenTime := 0, timer := 0, requestSet := none, startMark := .idle
        slots := Vector.replicate 16 .NOT_RECEIVED, peerLeft := noPeer, peerRight := noPeer
        fieldClass := .FRESH, noticeClass := .FRESH }
    access := { s.access with cadence := cadence, quietRounds := 0 }
    notices := { s.notices with inFlight := .NONE }
    lanes := lanesAfterPeersLost s
    supply := { s.supply with dormancy := .AWAKE, dormantRounds := 0, quietMinutes := 0, pendingEntry := false } }

/-! ## Field windows (R1, R10, R11, R16) -/

/-- A command whose round start begins a field window: the start mark after a round that ends with a grant held, or a round of the
LONE schedule (R1, R127, R135). -/
abbrev beginsWindow (c : Instr) (input : RoundInput) (s : State) : Prop :=
  (∃ began length, c = .markEnd began length input ∧ 17572 ≤ began ∧ 8 ≤ length ∧ s.line.state = .SYNCED ∧
      s.access.grant = true) ∨
    (c = .roundTimerExpiry input ∧ s.line.state = .LONE ∧
      (s.line.round + 1).toNat % (2 * s.supply.straps.reach + 1) =
        s.supply.straps.station.val % (2 * s.supply.straps.reach + 1))

/-- A search half-sweep that begins with the window figure `qx4` (R8). -/
def opened (qx4 : Nat) : Sweep :=
  .search { toClose := 2 ^ ((qx4 + 2) / 4), closed := 0, collided := 0, empty := 0, read := [] }

/-- The called list of a follow half-sweep: the tracks with verdict NONE in order of last-read round, oldest first, those of one
last-read round in the order of the table, the first 16 of them (R11). -/
def isCalledList (s : State) (items : List ItemCode) : Prop :=
  let age (x : Track) : Nat := (s.line.round - x.lastRead).toNat
  let candidates := s.track.table.filter fun x => x.verdict = none
  ∃ order : List Track, order.Perm candidates ∧ order.Pairwise (fun x y => age y ≤ age x) ∧
    (∀ n, (order.filter fun x => age x = n) = candidates.filter fun x => age x = n) ∧
    items = (order.take 16).map Track.item

/-- The part after the normal end of a half-sweep, but for its tracks: a search moves the window figure by C and E, and returns
the quiet-round count to 0 unless it was all-empty; a follow does neither (R10, R16, R132). -/
def swept (sweep : Sweep) (s : State) : State :=
  match sweep with
  | .follow _ => s
  | .search r =>
    { s with
      field := { s.field with qx4 := (max 0 (min 20 ((s.field.qx4 : Int) + r.collided - (r.empty / 2 : Nat)))).toNat }
      access :=
        { s.access with quietRounds := if r.closed ≠ 0 ∧ r.empty = r.closed then s.access.quietRounds else 0 } }

/-! ## Tracks (R20) -/

/-- The record that a kept read of strength `v` on coil `half` creates (R20, R21, R23 to R25). -/
def created (s : State) (item : ItemCode) (loan : LoanWord) (half : Coil) (v : Strength) : Track :=
  let entry := s.track.cache.find? fun e => e.item = item
  let first : Option Nat := if v = 0 then none else some (4 * v.toNat)
  { item := item, loan := loan, firstRound := s.line.round, lastRead := s.line.round, reads := 1
    sH := if half = .H then first else none
    sS := if half = .S then first else none
    lastD := none, startSide := .notSet, phase := .OPEN
    side :=
      if s.supply.straps.station.val ≠ 0 then (if s.supply.straps.isEnd then .LEFT else .UNSURE)
      else if s.supply.straps.isEnd then .UNSURE else .RIGHT
    pL := entry.bind CacheEntry.left
    pR := entry.bind CacheEntry.right
    verdict := none, peerAlarm := none, mark := .read v half }

/-! ## Invariants -/

/-- Every parameter lies in its range, and T_cross is held at T_side or above (R47, R178). -/
abbrev paramsInRange (p : Params) : Prop :=
  p.readFloor ≤ 60 ∧ (1 ≤ p.decayStep ∧ p.decayStep ≤ 64) ∧ (8 ≤ p.tSide ∧ p.tSide ≤ 200) ∧
    (p.tSide ≤ p.tCross ∧ p.tCross ≤ 400) ∧ (2 ≤ p.mSide ∧ p.mSide ≤ 40) ∧ (40 ≤ p.tSingle ∧ p.tSingle ≤ 508) ∧
    (5 ≤ p.linger ∧ p.linger ≤ 250) ∧ (2 ≤ p.peerAge ∧ p.peerAge ≤ 50) ∧ (50 ≤ p.soundLimit ∧ p.soundLimit ≤ 3000) ∧
    p.volume ≤ 15 ∧ (25 ≤ p.calmAfter ∧ p.calmAfter ≤ 3000) ∧ p.dormantDelay ≤ 240

/-- The items of the track table and of the sighting cache: one record an item, one entry an item, no item in both (R20, R29). -/
abbrev itemsApart (u : TrackUnit) : Prop :=
  (u.table.map Track.item).Nodup ∧ (u.cache.map CacheEntry.item).Nodup ∧
    ∀ e ∈ u.cache, ∀ t ∈ u.table, e.item ≠ t.item

/-- Every list of the part is within its capacity, items and excuses stand once, and an excuse lives 1 to 255 minutes
(R20, R29, R76, R106, R181). -/
abbrev withinCapacity (s : State) : Prop :=
  (s.track.table.length ≤ Config.trackCapacity ∧ s.track.cache.length ≤ Config.cacheCapacity ∧ itemsApart s.track) ∧
    (s.verdict.excuses.length ≤ Config.excuseCapacity ∧ (s.verdict.excuses.map ExcuseEntry.item).Nodup ∧
      ∀ e ∈ s.verdict.excuses, 1 ≤ e.life ∧ e.life ≤ 255) ∧
    s.notices.outbox.length ≤ Config.outboxCapacity ∧ s.host.ring.length ≤ Config.ringCapacity

/-- While the part runs, the sounder plays exactly while a lane machine of the pedestal is SOUNDING (R151, R157). -/
abbrev sounderFollows (s : State) : Prop := heldInReset s = false → s.sounder.playing = anySounding s

/-- The peer code records stand at ABSENT with no code seen. -/
abbrev peersAbsent (u : LineUnit) : Prop :=
  u.peerLeft = noPeer ∧ u.peerRight = noPeer

/-- What each line state and dormancy allow: a window only in SYNCED and LONE; a start mark and a notice in flight only in SYNCED,
the latter at the head of an outbox that is not empty; SILENT only while DORMANT; the peer codes absent in LISTEN, LONE and
SILENT; a DORMANT pedestal with nothing in hand (R1, R88, R91, R98, R99, R103, R106, R192). -/
abbrev lineConduct (s : State) : Prop :=
  (s.field.window ≠ none → s.line.state = .SYNCED ∨ s.line.state = .LONE) ∧
    (s.line.startMark ≠ .idle → s.line.state = .SYNCED) ∧
    (s.notices.inFlight ≠ .NONE → s.line.state = .SYNCED ∧ s.notices.outbox ≠ []) ∧
    (s.line.state = .LISTEN ∨ s.line.state = .LONE ∨ s.line.state = .SILENT → peersAbsent s.line) ∧
    (s.supply.dormancy = .AWAKE → s.line.state ≠ .SILENT) ∧
    (s.supply.dormancy = .DORMANT →
      (s.line.state = .SILENT ∨ s.line.state = .CLASHED) ∧ peersAbsent s.line ∧ s.track.table = [] ∧ s.track.cache = [] ∧
        s.notices.outbox = [] ∧ s.lanes.left = .ARMED ∧ s.lanes.right = .ARMED ∧ s.access.grant = false ∧
        s.supply.dormantRounds = 0 ∧ s.supply.quietMinutes = 0 ∧ s.supply.pendingEntry = false)

/-- The window figure stands at 1 to 20, and the half-sweep in flight has work left: as many reply windows opened as the figure
gives, none counted empty that is not closed; calls waiting, at most 16 in all (R8 to R11). -/
abbrev fieldFigure (f : FieldUnit) : Prop :=
  (1 ≤ f.qx4 ∧ f.qx4 ≤ 20) ∧
    match f.window with
    | none => True
    | some w =>
      match w.sweep with
      | .search r =>
        1 ≤ r.toClose ∧ r.closed + r.toClose = callWindows f.qx4 ∧ r.empty + r.collided + r.read.length ≤ r.closed
      | .follow r => r.waiting ≠ [] ∧ r.called.length + r.waiting.length ≤ Config.followCalls

/-- A sound timer, while it runs, stands at 1 to 3,000 rounds (R144). -/
abbrev soundTimerInRange : LaneState → Prop
  | .ARMED => True
  | .SOUNDING t => 1 ≤ t ∧ t ≤ 3000
  | .HUSHED _ => True

/-- The counts of rounds and minutes stand in their ranges, with the parameters in theirs (R80, R91, R132, R144, R191). -/
abbrev countersInRange (s : State) : Prop :=
  paramsInRange s.host.params ∧ s.verdict.minute < Config.minuteRounds ∧ s.line.listenTime ≤ Config.listenLimit ∧
    s.access.quietRounds ≤ 3000 ∧ (s.access.cadence = .CALM → s.access.quietRounds = 0) ∧
    s.supply.dormantRounds < Config.minuteRounds ∧ s.supply.quietMinutes ≤ 240 ∧
    soundTimerInRange s.lanes.left ∧ soundTimerInRange s.lanes.right

end Sys2Proof.Machine
end

