-- ==== Sys2Proof/WellFormed.lean ====
section
/-! DEFINITION. Which commands can come about: what the operands of a command can be, whatever the state (spec 05, 06, 11, 13).
`exec` gives every command a meaning all the same. -/

namespace Sys2Proof

/-- A round input is well formed when its order holds every part of a round start once and keeps the orders the rules fix. -/
def RoundInput.wf (input : RoundInput) : Bool := Machine.orderAllowed input.order

/-- A payload of a host frame has at most 120 bytes (R173). -/
def payloadWf (payload : List Byte) : Bool := payload.length ≤ Config.maxPayload

/-- A frame that belongs to no row of a named command: its code names no command, or it is a RESET whose scope byte is lacking
or undefined (R176, R200). -/
def namesNoRow (code : Byte) (payload : List Byte) : Bool :=
  code.toNat = 0 || 0x10 < code.toNat ||
    (code.toNat = 0x10 &&
      match payload with
      | [] => true
      | scope :: _ => scope.toNat = 0 || 3 < scope.toNat)

/-- Whether a command can come about. -/
def Instr.wf : Instr → Bool
  | .powerOnHold _ => true
  | .powerOn _ _ => true
  | .markEnd _ length input => 8 ≤ length && input.wf
  | .roundTimerExpiry input => input.wf
  | .followingTimeout input => input.wf
  | .startMarkSend _ => true
  | .calmEntry => true
  | .trackExpiry => true
  | .cacheAgeing => true
  | .staleNotice => true
  | .minuteBoundary => true
  | .soundLimitExpiry _ => true
  | .quietMinute => true
  | .listenTimeout => true
  | .lineStuck _ input => input.wf
  | .lineStuckTimingFree _ input => input.wf
  | .loneRecovery => true
  | .timingFollowingRestored => true
  | .slotReceived _ _ => true
  | .ownSlotReadback _ => true
  | .requestFieldEnd _ => true
  | .noticeSlotStart _ => true
  | .noticeSlotEnd _ levels => 1 ≤ levels.length && levels.length ≤ Machine.noticeBitTimes
  | .replyWindowEnd _ _ => true
  | .followCallEnd _ _ => true
  | .halfSweepTimeLimit _ => true
  | .sounderEntryEnd => true
  | .sounderEndMarkerRecheck => true
  | .flashToggle _ => true
  | .beamChange _ _ => true
  | .clearPress => true
  | .hostFrameBad bytes => !bytes.isEmpty
  | .hostByteGapTimeout _ _ => true
  | .hostFrameBusy _ payload => payloadWf payload
  | .unknownCommand code payload => payloadWf payload && namesNoRow code payload
  | .identify payload => payloadWf payload
  | .status payload => payloadWf payload
  | .tracks payload => payloadWf payload
  | .counts payload => payloadWf payload
  | .takeCounts payload => payloadWf payload
  | .reports payload => payloadWf payload
  | .stream payload => payloadWf payload
  | .setParam payload => payloadWf payload
  | .getParam payload => payloadWf payload
  | .excuseAdd payload => payloadWf payload
  | .excuseDrop payload => payloadWf payload
  | .excuseList payload => payloadWf payload
  | .hush payload => payloadWf payload
  | .cadence payload => payloadWf payload
  | .rest payload => payloadWf payload
  | .resetFull more => payloadWf (1 :: more)
  | .resetEngine more => payloadWf (2 :: more)
  | .resetCounts more => payloadWf (3 :: more)
  | .responseSent _ => true
  | .reportFrameSent => true
  | .runTooShort => true
  | .beamSample _ _ => true
  | .clearSample _ => true
  | .sounderSample => true

end Sys2Proof
end

