-- ==== Sys2Proof/Certificates/Slice0/Obligations.lean ====
section
/-! DEFINITION. The statements about the part, each a proposition for the provers. -/

open Sys2Proof Sys2Proof.Machine

/-! ## The queue and the whole machine -/

/-- One step takes the command at the front of the queue and carries it out on the state with the queue's rest; with an empty
queue the block idles (log entry 3, the model's choice). -/
def Obligations.StepTakesFront : Prop :=
  (∀ (c : Instr) (rest : List Instr) (s : State),
      step { s with pending := c :: rest } = exec c { s with pending := rest }) ∧
    ∀ s : State, s.pending = [] → step s = .next s

/-- No rule stops the part: every command, with any operands and in any state, answers a next state.

No command touches the queue of the commands that wait behind it. -/
def Obligations.EveryCommandGoesOn : Prop :=
  (∀ (c : Instr) (s : State), ∃ t : State, exec c s = .next t) ∧
  (∀ (c : Instr) (s t : State), exec c s = .next t → t.pending = s.pending)

/-- While the part is held in reset, no command but a POWER-ON changes anything: no sample, byte, bit or round is taken (R187). -/
def Obligations.HeldTakesNothing : Prop :=
  ∀ (c : Instr) (s : State), heldInReset s = true → (∀ source, c ≠ .powerOnHold source) →
    (∀ last pins, c ≠ .powerOn last pins) → exec c s = .next s

/-- Round starts, and with them the round count: only the five commands that can bring a round start add one to it, by at most
one a command; only a POWER-ON release and the end of a response that carries RESET FULL set it to 0; every other command keeps
it (R87, R105).

The strap values and the reset cause are changed by POWER-ON and RESET FULL alone (R187, R189). -/
def Obligations.RoundCountAndStrapsHeld : Prop :=
  (∀ (c : Instr) (s t : State), exec c s = .next t →
     match c with
     | .markEnd _ _ _ => t.line.round = s.line.round ∨ t.line.round = s.line.round + 1
     | .roundTimerExpiry _ => t.line.round = s.line.round ∨ t.line.round = s.line.round + 1
     | .followingTimeout _ => t.line.round = s.line.round ∨ t.line.round = s.line.round + 1
     | .lineStuck _ _ => t.line.round = s.line.round ∨ t.line.round = s.line.round + 1
     | .lineStuckTimingFree _ _ => t.line.round = s.line.round ∨ t.line.round = s.line.round + 1
     | .powerOn _ _ => t.line.round = 0
     | .responseSent _ =>
       t.line.round = s.line.round ∨
         (t.line.round = 0 ∧ ∃ r, s.host.outstanding = some r ∧ r.reset = some .FULL)
     | _ => t.line.round = s.line.round) ∧
  (∀ (c : Instr) (s t : State), exec c s = .next t → (∀ last pins, c ≠ .powerOn last pins) →
     (t.supply.straps = s.supply.straps ∧ t.supply.cause = s.supply.cause) ∨
       ∃ pins r, c = .responseSent pins ∧ s.host.outstanding = some r ∧ r.reset = some .FULL ∧
         t.supply.cause = .FULL ∧ t.supply.straps = readStraps pins)

/-- Every step keeps the tables, lists, outbox and ring within their capacities, one record an item (R20, R29, R76, R106,
R181). -/
def Obligations.CapacitiesKept : Prop :=
  ∀ s t : State, withinCapacity s → step s = .next t → withinCapacity t

/-- Every step keeps the sounder playing exactly while a lane machine of the pedestal is SOUNDING (R151, R157). -/
def Obligations.SounderFollowsLanes : Prop :=
  ∀ s t : State, sounderFollows s → step s = .next t → sounderFollows t

/-- Every step keeps what each line state and dormancy allow (R1, R88, R91, R98, R99, R103, R106, R192). -/
def Obligations.LineConductKept : Prop :=
  ∀ s t : State, lineConduct s → step s = .next t → lineConduct t

/-- Every step keeps the window figure at 1 to 20 and the half-sweep in flight consistent with it (R8 to R11).

Every step keeps the parameters, the sound timers and the counts of rounds and minutes in their ranges (R47, R80, R91, R132, R144,
R178, R191). -/
def Obligations.FiguresStayInRange : Prop :=
  (∀ s t : State, fieldFigure s.field → step s = .next t → fieldFigure t.field) ∧
  (∀ s t : State, countersInRange s → step s = .next t → countersInRange t)

/-- A verdict once given to a track stands as long as the track is in the table, whatever the command (R66, R69). The items
stand once (an invariant of its own, `CapacitiesKept`). -/
def Obligations.VerdictStands : Prop :=
  ∀ (s t : State) (x y : Track) (v : VerdictRecord), (s.track.table.map Track.item).Nodup → step s = .next t →
    x ∈ s.track.table → y ∈ t.track.table → y.item = x.item → x.verdict = some v → y.verdict = some v

/-- The state right after reset meets every invariant. -/
def Obligations.ResetMeetsInvariants : Prop :=
  paramsInRange State.reset.host.params ∧ withinCapacity State.reset ∧ sounderFollows State.reset ∧
    lineConduct State.reset ∧ fieldFigure State.reset.field ∧ countersInRange State.reset


/-! ## Line timing (chapter 5) -/

/-- A mark of 8 bit times or more that begins in the quiet tail is a start mark: its end is a round start with the timer at the
mark's length, for a SYNCED pedestal and for a SILENT or CLASHED one with timing FOLLOWING; the driver is released before it
(R87, R89, R120). Where the length passes the timer 31, the station slots passed are missed as log entry 35 infers. -/
def Obligations.StartMarkStartsRound : Prop :=
  ∀ (began length : Nat) (input : RoundInput) (s : State), heldInReset s = false →
    (s.line.state = .SYNCED ∨
      ((s.line.state = .SILENT ∨ s.line.state = .CLASHED) ∧ s.line.timing = .FOLLOWING)) →
    8 ≤ length → 17572 ≤ began →
    ∃ t, exec (.markEnd began length input) s = .next t ∧
      RoundBegun length
        { s with
          line := { s.line with startMark := .idle, dominantRun := 0 }
          notices := { s.notices with inFlight := .NONE } } t

/-- The end of a mark ends LISTEN: the pedestal is SYNCED, and the round start has the timer at the mark's length. With no DORMANT
entry at that round start it stays SYNCED (R91).

A dominant run of fewer than 8 bit times is no mark, and in LONE and with timing FREE a mark is not classed: no round start
comes. Of the runs the model keeps what its log entry 18 says (R85, R100, R101). Where the mark runs past timer 31, the station
slots it passes are missed as log entry 35 infers. -/
def Obligations.MarksOutsideSync : Prop :=
  (∀ (began length : Nat) (input : RoundInput) (s : State), heldInReset s = false → s.line.state = .LISTEN → 8 ≤ length →
     ∃ t, exec (.markEnd began length input) s = .next t ∧
       RoundBegun length { s with line := { s.line with state := .SYNCED, dominantRun := 0 } } t) ∧
  (∀ (began length : Nat) (input : RoundInput) (s : State), heldInReset s = false →
     (length < 8 → exec (.markEnd began length input) s = .next s) ∧
       (8 ≤ length →
         (s.line.state = .LONE ∨
           ((s.line.state = .SILENT ∨ s.line.state = .CLASHED) ∧ s.line.timing = .FREE)) →
         exec (.markEnd began length input) s =
           .next { s with line := { s.line with dominantRun := 0, recessiveRun := 1 } }))

/-- A mark that begins before the quiet tail is a framing error: a line error, every station slot that had not passed entered as
NOT RECEIVED, the grant cancelled, no field class update, and a round start at the mark's end that carries no window (R90,
R127). The calm values of the cut slots follow log entry 11, the model's choice, and are not stated here. Where the mark runs
past timer 31, the slots of the new round that it passes are missed as log entry 35 infers. -/
def Obligations.FramingErrorAbandonsRound : Prop :=
  ∀ (began length : Nat) (input : RoundInput) (s : State), heldInReset s = false →
    (s.line.state = .SYNCED ∨
      ((s.line.state = .SILENT ∨ s.line.state = .CLASHED) ∧ s.line.timing = .FOLLOWING)) →
    8 ≤ length → began < 17572 →
    ∃ m t, exec (.markEnd began length input) s = .next t ∧ RoundBegun length m t ∧ t.field.window = none ∧
      (restNotDue s → t.line.fieldClass = s.line.fieldClass) ∧
      m =
        { s with
          line :=
            { s.line with
              startMark := .idle
              dominantRun := 0
              slots := Vector.ofFn fun j : Fin 16 =>
                if j.val ≠ s.supply.straps.station.val ∧ began + 7 ≤ 31 + 16 * j.val then .NOT_RECEIVED
                else s.line.slots[j] }
          access := { s.access with grant := false, peerCalm := m.access.peerCalm }
          notices := { s.notices with inFlight := .NONE }
          host :=
            { s.host with errors := { s.host.errors with lineErrors := satSucc s.host.errors.lineErrors } } } ∧
      ∀ j : Fin 16, m.access.peerCalm[j] ≠ s.access.peerCalm[j] → m.access.peerCalm[j] = .CALM ∧ withinReach s j = true

/-- What a SYNCED round that ends with a start mark settles for the next: the field class by the grant and the FRESH requesters
within reach, and the request decision by the coils, the cadence and the new round count (R124, R129).

The quiet-round count of an AWAKE pedestal with an empty table and no window in flight, at the start of a SYNCED round: a
broken beam returns it to 0, else it goes up by one, and at calm_after the cadence becomes CALM; while CALM nothing changes
(R132).

The lane codes of the slot word at a round start that ends no window, expires no track and hushes no machine: QUIET for a lane the
station lacks; else FAULT with both coils FAULT; else by the machine and the occupancy of the lane, a track with side UNSURE
occupying both lanes of a station that has two (R92, R139 to R141). -/
def Obligations.SyncedRoundStart : Prop :=
  (∀ (began length : Nat) (input : RoundInput) (s : State), heldInReset s = false → s.line.state = .SYNCED → restNotDue s →
     8 ≤ length → 17572 ≤ began →
     let next := s.line.round + 1
     let usable :=
       s.field.coilH = .OK ∨ s.field.coilS = .OK ∨
         ∃ failed, (s.field.coilH = .FAULT failed ∨ s.field.coilS = .FAULT failed) ∧ 250 ≤ (next - failed).toNat
     let rival :=
       ∃ (requests : BitVec 16) (j : Fin 16), s.line.requestSet = some requests ∧ requests.getLsbD j.val = true ∧
         j.val ≠ s.supply.straps.station.val ∧
         j.val ≤ s.supply.straps.station.val + s.supply.straps.reach ∧
         s.supply.straps.station.val ≤ j.val + s.supply.straps.reach ∧
         ∀ w, s.line.slots[j] = .PRESENT w → w.fieldClass = .FRESH
     ∃ t, exec (.markEnd began length input) s = .next t ∧
       (s.access.grant = true → t.line.fieldClass = .DEFERRED) ∧
       (s.access.grant = false → ¬rival → t.line.fieldClass = .FRESH) ∧
       (s.access.grant = false → rival → t.line.fieldClass = s.line.fieldClass) ∧
       ∃ b, t.access.requests = some b ∧
         (b = true ↔ usable ∧ (t.access.cadence = .BRISK ∨ next.toNat % 8 = 0))) ∧
  (∀ (length began : Nat) (input : RoundInput) (s : State), heldInReset s = false → s.line.state = .SYNCED →
     s.supply.dormancy = .AWAKE → restNotDue s → s.track.table = [] → s.field.window = none → s.access.grant = false →
     8 ≤ length → 17572 ≤ began →
     let count := if beamBroken s then 0 else s.access.quietRounds + 1
     ∃ t, exec (.markEnd began length input) s = .next t ∧
       (s.access.cadence = .CALM → t.access.cadence = .CALM ∧ t.access.quietRounds = s.access.quietRounds) ∧
       (s.access.cadence = .BRISK → s.host.params.calmAfter ≤ count → t.access.cadence = .CALM ∧ t.access.quietRounds = 0) ∧
       (s.access.cadence = .BRISK → count < s.host.params.calmAfter →
         t.access.cadence = .BRISK ∧ t.access.quietRounds = count)) ∧
  (∀ (length began : Nat) (input : RoundInput) (s : State), heldInReset s = false → s.line.state = .SYNCED → restNotDue s →
     s.field.window = none → s.access.grant = false → 8 ≤ length → 17572 ≤ began →
     (∀ x ∈ s.track.table, (s.line.round + 1 - x.lastRead).toNat ≤ s.host.params.linger) →
     (∀ k, s.lanes.left = .SOUNDING k ∨ s.lanes.right = .SOUNDING k → 2 ≤ k) →
     let has (l : LaneSide) : Bool :=
       match l with
       | .left => s.supply.straps.station.val ≠ 0
       | .right => !s.supply.straps.isEnd
     let tracked (l : LaneSide) : Bool :=
       s.track.table.any fun x =>
         match x.side, l with
         | .LEFT, .left => true
         | .RIGHT, .right => true
         | .UNSURE, _ => has .left && has .right
         | .LEFT, .right => false
         | .RIGHT, .left => false
     let code (l : LaneSide) (m : LaneState) : LaneCode :=
       if has l = false then .QUIET
       else if s.field.coilH ≠ .OK ∧ s.field.coilS ≠ .OK then .FAULT
       else
         match m with
         | .ARMED => if tracked l then .OCCUPIED else .QUIET
         | .SOUNDING _ => .SOUND
         | .HUSHED _ => if tracked l then .HUSH_OCC else .HUSH_CLEAR
     ∃ t, exec (.markEnd began length input) s = .next t ∧ t.line.slotWord.left = code .left s.lanes.left ∧
       t.line.slotWord.right = code .right s.lanes.right)

/-- A grant held at a start mark, and a round of the LONE schedule, begin a window on an H coil that is OK and in its band: the
kind by the preference pattern, the position advanced, the search opened with the reply windows its figure gives, the follow
with its called list: the tracks with verdict NONE by last-read round, oldest first, the earliest created first among those of
one round, at most 16 (R1, R5, R8, R11, R127, R130, R135). -/
def Obligations.WindowBegins : Prop :=
  ∀ (c : Instr) (input : RoundInput) (s : State), heldInReset s = false → restNotDue s → s.field.window = none →
    s.field.coilH = .OK → input.sense.hInBand = true → beginsWindow c input s →
    ∃ t waiting, exec c s = .next t ∧ t.access.patternPosition = s.access.patternPosition + 1 ∧ t.field.qx4 = s.field.qx4 ∧
      t.field.coilH = .OK ∧ t.field.coilS = s.field.coilS ∧ (∀ x ∈ t.track.table, x.mark = .none) ∧ isCalledList t waiting ∧
      t.field.window =
        some
          { half := .H
            sweep :=
              if (∃ x ∈ t.track.table, x.verdict = none) ∧
                  s.host.params.pattern.getLsbD s.access.patternPosition.val = false then
                .follow { waiting := waiting, called := [], answered := [] }
              else opened s.field.qx4 }

/-- The timer of a SYNCED pedestal reaches 20,000: with the line recessive it begins its start mark, with the line dominant it
does not drive; a run that then ends too short lets it begin. Nothing else changes (R88).

The listen time reaching 60,000 makes the pedestal SYNCED with the round timer at 20,000 and no round start, whether it is
told as the listen timeout or as the third time the timer reaches 20,000 (R91; log entries 22 and 30).

The driver is in use in SYNCED alone: in every other line state, and while the part is held in reset, it is released in every bit
time. In SYNCED a start mark that is being sent is 12 bit times dominant and 4 recessive, and the own slot carries the slot word
(R84, R85, R88, R92). -/
def Obligations.TimerReachesLimit : Prop :=
  (∀ s : State, heldInReset s = false → s.line.state = .SYNCED →
     exec (.startMarkSend .recessive) s =
         .next { s with line := { s.line with timer := 20000, startMark := .sending } } ∧
       exec (.startMarkSend .dominant) s =
         .next { s with line := { s.line with timer := 20000, startMark := .heldBack } } ∧
       (s.line.startMark = .heldBack →
         exec .runTooShort s = .next { s with line := { s.line with startMark := .sending, dominantRun := 0 } })) ∧
  (∀ (input : RoundInput) (s : State), heldInReset s = false → s.line.state = .LISTEN →
     exec .listenTimeout s =
         .next { s with line := { s.line with state := .SYNCED, timer := 20000, listenTime := 60000 } } ∧
       (60000 ≤ s.line.listenTime + (20000 - s.line.timer) →
         exec (.roundTimerExpiry input) s =
           .next { s with line := { s.line with state := .SYNCED, timer := 20000, listenTime := 60000 } })) ∧
  (∀ s : State,
     (heldInReset s = true ∨ s.line.state ≠ .SYNCED →
         (∀ b ∈ s.markDriven ++ s.slotDriven ++ s.requestDriven ++ s.noticeDriven, b = true) ∧ s.driverInUse = false ∧
           s.requestBit = false) ∧
       s.markDriven.length = 16 ∧ s.slotDriven.length = 16 ∧ s.requestDriven.length = 20 ∧ s.noticeDriven.length = 720 ∧
       (heldInReset s = false → s.line.state = .SYNCED →
         (s.line.startMark = .sending → s.markDriven = List.replicate 12 false ++ List.replicate 4 true) ∧
           (s.line.startMark ≠ .sending → ∀ b ∈ s.markDriven, b = true) ∧
           (∀ i, i < 16 → s.slotDriven.getD i true = (slotBits s.line.slotWord).getLsbD i) ∧
           (s.notices.inFlight ≠ .PLACING → ∀ b ∈ s.noticeDriven, b = true)))

/-- Round starts from the own timer: at 20,000 with the timer set to 0 in LONE, with timing FREE, and in LISTEN before its third
20,000; at 22,428 with the timer set to 2,428 with timing FOLLOWING in SILENT and CLASHED (R87, R91).

The station slots that the timer 2,428 has passed are missed in the round that begins: `RoundBegun` enters each as NOT RECEIVED
and takes CALM for each calm value within reach. R93, R94 and R134 say so of a slot time that does not pass in a round; that it
is so of slots that a round starts past is the model's inference, log entry 35. -/
def Obligations.OwnTimerStartsRound : Prop :=
  ∀ (input : RoundInput) (s : State), heldInReset s = false →
    ((s.line.state = .LONE ∨ ((s.line.state = .SILENT ∨ s.line.state = .CLASHED) ∧ s.line.timing = .FREE)) →
        ∃ t, exec (.roundTimerExpiry input) s = .next t ∧ RoundBegun 0 s t) ∧
      (s.line.state = .LISTEN → s.line.listenTime + (20000 - s.line.timer) < 60000 →
        ∃ t, exec (.roundTimerExpiry input) s = .next t ∧
          RoundBegun 0
            { s with line := { s.line with listenTime := s.line.listenTime + (20000 - s.line.timer) } } t) ∧
      ((s.line.state = .SILENT ∨ s.line.state = .CLASHED) → s.line.timing = .FOLLOWING →
        ∃ t, exec (.followingTimeout input) s = .next t ∧ RoundBegun 2428 s t)

/-- A dominant run of 200 sends a SYNCED or LISTEN pedestal to LONE: the driver released, a FAULT report STUCK, the peer codes
ABSENT, the slot table NOT RECEIVED, no request set, the grant cancelled, the timer running on, and the classes and a window in
flight kept; a timer at 20,000 or more gives a round start at once (R99, R127).

A dominant run of 200 in SILENT or CLASHED with timing FOLLOWING sets the timing FREE: a FAULT report STUCK, the slot table
NOT RECEIVED, in CLASHED the peer codes ABSENT, the line state kept; a timer at 20,000 or more gives a round start at once
(R101). -/
def Obligations.StuckLineActs : Prop :=
  (∀ (timer : Nat) (input : RoundInput) (s : State), heldInReset s = false →
     (s.line.state = .SYNCED ∨ s.line.state = .LISTEN) →
     let m : State :=
       { s with
         line :=
           { s.line with
             state := .LONE, timer := timer, dominantRun := 200, recessiveRun := 0, startMark := .idle, requestSet := none
             slots := Vector.replicate 16 .NOT_RECEIVED, peerLeft := noPeer, peerRight := noPeer }
         access := { s.access with grant := false }
         notices := { s.notices with inFlight := .NONE }
         lanes := lanesAfterPeersLost s
         host := recorded s.line.round (.FAULT .line .STUCK) s.host }
     (timer < 20000 → exec (.lineStuck timer input) s = .next m) ∧
       (20000 ≤ timer → ∃ t, exec (.lineStuck timer input) s = .next t ∧ RoundBegun 0 m t)) ∧
  (∀ (timer : Nat) (input : RoundInput) (s : State), heldInReset s = false →
     (s.line.state = .SILENT ∨ s.line.state = .CLASHED) → s.line.timing = .FOLLOWING →
     let m : State :=
       { s with
         line :=
           { s.line with
             timing := .FREE, timer := timer, dominantRun := 200, recessiveRun := 0
             slots := Vector.replicate 16 .NOT_RECEIVED
             peerLeft := if s.line.state = .CLASHED then noPeer else s.line.peerLeft
             peerRight := if s.line.state = .CLASHED then noPeer else s.line.peerRight }
         lanes := if s.line.state = .CLASHED then lanesAfterPeersLost s else s.lanes
         host := recorded s.line.round (.FAULT .line .STUCK) s.host }
     (timer < 20000 → exec (.lineStuckTimingFree timer input) s = .next m) ∧
       (20000 ≤ timer → ∃ t, exec (.lineStuckTimingFree timer input) s = .next t ∧ RoundBegun 0 m t))

/-- A recessive run of 20,000 ends a stuck line: from LONE the pedestal abandons its window, reports CLEARED and enters LISTEN;
with timing FREE it reports CLEARED and follows again (R3, R91, R100, R101). The runs hold what log entry 18 says. -/
def Obligations.QuietLineRestores : Prop :=
  ∀ s : State, heldInReset s = false →
    (s.line.state = .LONE →
        exec .loneRecovery s =
          .next
            { s with
              field := { s.field with window := none }
              line :=
                { s.line with
                  state := .LISTEN, listenTime := 0, timer := 0, dominantRun := 0, recessiveRun := 20000, startMark := .idle
                  requestSet := none, slots := Vector.replicate 16 .NOT_RECEIVED, peerLeft := noPeer, peerRight := noPeer
                  fieldClass := .FRESH, noticeClass := .FRESH }
              notices := { s.notices with inFlight := .NONE }
              lanes := lanesAfterPeersLost s
              host := recorded s.line.round (.FAULT .line .CLEARED) s.host }) ∧
      ((s.line.state = .SILENT ∨ s.line.state = .CLASHED) → s.line.timing = .FREE →
        exec .timingFollowingRestored s =
          .next
            { s with
              line := { s.line with timing := .FOLLOWING, dominantRun := 0, recessiveRun := 20000 }
              host := recorded s.line.round (.FAULT .line .CLEARED) s.host })


/-! ## Parts of a round start -/

/-- CALM entry and the minute boundary, each when it is due: at a quiet-round count at or above calm_after the cadence of an
AWAKE, BRISK pedestal becomes CALM and the count 0; at the 3,000th round the minute counter returns to 0, every excuse loses a
minute of its life, and those at 0 leave. Not due, the commands change nothing (R80, R132; log entries 8 and 12).

Ageing: a cache entry stays while one of its parts is at most peer_age rounds old, a SIGHTING notice leaves the outbox 5
rounds after it was built, the in-flight head apart; everything else stays as it is (R30, R106, R108). -/
def Obligations.RoundPartsAct : Prop :=
  (∀ s : State, heldInReset s = false →
     (s.supply.dormancy = .AWAKE → s.access.cadence = .BRISK → s.host.params.calmAfter ≤ s.access.quietRounds →
         exec .calmEntry s = .next { s with access := { s.access with cadence := .CALM, quietRounds := 0 } }) ∧
       (s.supply.dormancy = .DORMANT ∨ s.access.cadence = .CALM ∨ s.access.quietRounds < s.host.params.calmAfter →
         exec .calmEntry s = .next s) ∧
       (3000 ≤ s.verdict.minute + 1 →
         exec .minuteBoundary s =
           .next
             { s with
               verdict :=
                 { minute := 0
                   excuses :=
                     (s.verdict.excuses.map fun e => { e with life := e.life - 1 }).filter fun e => e.life ≠ 0 } }) ∧
       (s.verdict.minute + 1 < 3000 → exec .minuteBoundary s = .next s)) ∧
  (∀ s : State, heldInReset s = false →
     let young (p : Option PeerStrength) : Bool :=
       match p with
       | none => false
       | some p => (s.line.round - p.received).toNat ≤ s.host.params.peerAge
     let keeps (n : Notice) : Bool :=
       match n.body with
       | .SIGHTING _ => (s.line.round - n.built).toNat < 5
       | .VERDICT _ => true
       | .EXCUSE _ => true
     exec .cacheAgeing s =
         .next { s with track := { s.track with cache := s.track.cache.filter fun e => young e.left || young e.right } } ∧
       (s.notices.inFlight = .NONE →
         exec .staleNotice s = .next { s with notices := { s.notices with outbox := s.notices.outbox.filter keeps } }) ∧
       (s.notices.inFlight ≠ .NONE →
         exec .staleNotice s =
           .next
             { s with
               notices := { s.notices with outbox := s.notices.outbox.take 1 ++ s.notices.outbox.tail.filter keeps } }))

/-- The sound limit of a lane machine that has one round left: the machine is hushed by LIMIT. With more rounds left, or in
another state, the command changes nothing (R144; log entry 12). A stopped sounder's accumulators follow log entry 36, the model's
choice.

A quiet minute: the rounds return to 0, the quiet minutes go up by one and stop at 240, and at dormant_delay DORMANT entry is
made at once, or left pending while a machine sounds or a response to a RESET command, DONE or REFUSED, is outstanding (R176,
R191, R192, R201).

The dormant timer at the round start of an AWAKE pedestal with an empty table and no window, here in LISTEN, or in SYNCED with no
grant: not quiet, it returns to 0; quiet, it counts a round, and at the 3,000th a quiet minute, which at dormant_delay makes
DORMANT entry or leaves it pending; a pending entry is made at a quiet round start at which nothing bars it (R190 to R192). -/
def Obligations.MinuteAndSoundTimers : Prop :=
  (∀ (l : LaneSide) (s : State), heldInReset s = false →
     (∀ k, hasLane s l = true → laneState s l = .SOUNDING k → k ≤ 1 →
         exec (.soundLimitExpiry l) s = .next (hushed (fun m => m = l) .LIMIT s)) ∧
       ((hasLane s l = false ∨ ∀ k, laneState s l = .SOUNDING k → 1 < k) → exec (.soundLimitExpiry l) s = .next s)) ∧
  (∀ s : State, heldInReset s = false → s.supply.dormancy = .AWAKE → quiet s = true → 2999 ≤ s.supply.dormantRounds →
     s.supply.pendingEntry = false →
     let minutes := min 240 (s.supply.quietMinutes + 1)
     let due := s.host.params.dormantDelay ≠ 0 ∧ s.host.params.dormantDelay ≤ minutes
     let barred := anySounding s = true ∨ ∃ r, s.host.outstanding = some r ∧ (r.frame.code = 0x90 ∨ r.frame.code = 0xD0)
     (¬due →
         exec .quietMinute s = .next { s with supply := { s.supply with dormantRounds := 0, quietMinutes := minutes } }) ∧
       (due → barred →
         exec .quietMinute s =
           .next { s with supply := { s.supply with dormantRounds := 0, quietMinutes := minutes, pendingEntry := true } }) ∧
       (due → ¬barred → exec .quietMinute s = .next (rested s))) ∧
  (∀ (c : Instr) (input : RoundInput) (s : State), heldInReset s = false → s.supply.dormancy = .AWAKE → s.track.table = [] →
     s.field.window = none → (∀ k, s.lanes.left = .SOUNDING k ∨ s.lanes.right = .SOUNDING k → 2 ≤ k) →
     ((c = .roundTimerExpiry input ∧ s.line.state = .LISTEN ∧ s.line.listenTime + (20000 - s.line.timer) < 60000) ∨
       (∃ began length, c = .markEnd began length input ∧ 17572 ≤ began ∧ 8 ≤ length ∧ s.line.state = .SYNCED ∧
         s.access.grant = false)) →
     let u := s.supply
     let minutes := min 240 (u.quietMinutes + 1)
     let due := s.host.params.dormantDelay ≠ 0 ∧ s.host.params.dormantDelay ≤ minutes
     let barred := anySounding s = true ∨ ∃ r, s.host.outstanding = some r ∧ (r.frame.code = 0x90 ∨ r.frame.code = 0xD0)
     let zero : SupplyUnit := { u with dormantRounds := 0, quietMinutes := 0, pendingEntry := false }
     (quiet s = true ↔
         (∀ j : Fin 16, withinReach s j = true → s.access.peerCalm[j] = .CALM) ∧
           (s.supply.straps.isEnd = false → s.beams.hall.confirmed = .CLEAR ∧ s.beams.street.confirmed = .CLEAR ∧
             (s.line.peerRight.confirmed = .code .QUIET ∨ s.line.peerRight.confirmed = .ABSENT)) ∧
           (s.supply.straps.station.val ≠ 0 →
             s.line.peerLeft.confirmed = .code .QUIET ∨ s.line.peerLeft.confirmed = .ABSENT)) ∧
       ∃ t, exec c s = .next t ∧
         (quiet s = false → t.supply = zero) ∧
         (quiet s = true → u.dormantRounds + 1 < 3000 → u.pendingEntry = false ∨ barred →
           t.supply = { u with dormantRounds := u.dormantRounds + 1 }) ∧
         (quiet s = true → 3000 ≤ u.dormantRounds + 1 → u.pendingEntry = false → ¬due →
           t.supply = { u with dormantRounds := 0, quietMinutes := minutes }) ∧
         (quiet s = true → 3000 ≤ u.dormantRounds + 1 → due → barred →
           t.supply = { u with dormantRounds := 0, quietMinutes := minutes, pendingEntry := true }) ∧
         (quiet s = true → ¬barred → u.pendingEntry = true ∨ (3000 ≤ u.dormantRounds + 1 ∧ due) →
           t.supply = { zero with dormancy := .DORMANT } ∧ t.line.state = .SILENT ∧ t.line.timing = .FOLLOWING ∧
             t.track.cache = [] ∧ t.notices = { outbox := [], inFlight := .NONE } ∧ t.lanes.left = .ARMED ∧
             t.lanes.right = .ARMED))

/-- Expiry at a round start: exactly the tracks whose age exceeds linger leave the table, the others stay as they are in their
order, and the blocks that expiry does not act on keep their state (R36). The items stand once (`CapacitiesKept`).

The report of a track that expires alone: with a verdict, from its verdict record; without one and with a phase that has left
OPEN, verdict NONE; OPEN without a verdict and not fading, none. The fade rule spares a
track whose last D is absent or below T_side, whose start side is STREET, or while exactly one coil is FAULT (R35, R52, R56,
R73).

While every track that expires has its verdict, ARMED and SOUNDING machines keep their state, and a HUSHED one whose lane a
removed track occupied re-arms when no track left occupies it and the peer code is neither SOUND nor HUSH-OCC (R140, R148). -/
def Obligations.TrackExpiryReports : Prop :=
  (∀ s : State, heldInReset s = false → (s.track.table.map Track.item).Nodup →
     ∃ t, exec .trackExpiry s = .next t ∧
       t.track =
         { s.track with
           table := s.track.table.filter fun x => (s.line.round - x.lastRead).toNat ≤ s.host.params.linger } ∧
       t.field = s.field ∧ t.verdict = s.verdict ∧ t.line = s.line ∧ t.access = s.access ∧ t.supply = s.supply ∧
       t.notices.inFlight = s.notices.inFlight ∧ t.beams.hall = s.beams.hall ∧ t.beams.street = s.beams.street ∧
       t.beams.footfall = s.beams.footfall ∧ t.beams.counts.beamExits = s.beams.counts.beamExits ∧
       t.beams.counts.beamEntries = s.beams.counts.beamEntries ∧ t.beams.counts.tagEntries = s.beams.counts.tagEntries ∧
       t.host.params = s.host.params ∧ t.host.outstanding = s.host.outstanding ∧ t.host.streaming = s.host.streaming ∧
       t.host.receiver = s.host.receiver ∧ t.host.buffer = s.host.buffer ∧ t.sounder.table = s.sounder.table ∧
       t.pending = s.pending) ∧
  (∀ (s : State) (x : Track), heldInReset s = false → (s.track.table.map Track.item).Nodup →
     s.track.table.filter (fun y => s.host.params.linger < (s.line.round - y.lastRead).toNat) = [x] →
     let spared :=
       (∀ d, x.lastD = some d → d < s.host.params.tSide) ∨ x.startSide = .STREET ∨
         ¬(s.field.coilH = .OK ↔ s.field.coilS = .OK)
     (∀ v, x.verdict = some v → (v.direction = .OUT → x.phase ≠ .OPEN) →
         ∃ t, exec .trackExpiry s = .next t ∧ t.notices = s.notices ∧ t.beams = s.beams ∧
           t.host =
             recorded s.line.round
               (.PASSAGE x.item v.loanTested v.lane
                 (match v.direction, x.phase with
                   | .FADE_OUT, _ => .FADE_OUT
                   | _, .BACK => .BACK
                   | .UNKNOWN, _ => .UNKNOWN
                   | .OUT, .IN => .IN
                   | .OUT, .OUT => .OUT
                   | .OUT, .OPEN => .OUT)
                 (some v.outcome) v.held x.peerAlarm.isSome (x.lastRead - x.firstRound))
               s.host) ∧
       (x.verdict = none → x.phase = .IN → spared →
         ∃ t, exec .trackExpiry s = .next t ∧ t.notices = s.notices ∧ t.beams = s.beams ∧
           t.host =
             recorded s.line.round
               (.PASSAGE x.item x.loan
                 (match x.side with
                   | .LEFT => some (s.supply.straps.station.val - 1)
                   | .RIGHT => some s.supply.straps.station.val
                   | .UNSURE => none)
                 .IN none false x.peerAlarm.isSome (x.lastRead - x.firstRound))
               s.host) ∧
       (x.verdict = none → x.phase = .OPEN → spared →
         ∃ t, exec .trackExpiry s = .next t ∧ t.notices = s.notices ∧ t.beams = s.beams ∧ t.host = s.host)) ∧
  (∀ (l : LaneSide) (s : State), heldInReset s = false → (s.track.table.map Track.item).Nodup →
     let station := s.supply.straps.station.val
     let gone (x : Track) : Bool := s.host.params.linger < (s.line.round - x.lastRead).toNat
     let own : Side := match l with | .left => .LEFT | .right => .RIGHT
     let names (x : Track) : Bool :=
       x.side = own || (x.side = .UNSURE && station ≠ 0 && s.supply.straps.isEnd = false)
     let machine (u : LaneUnit) : LaneState := match l with | .left => u.left | .right => u.right
     let code := match l with | .left => s.line.peerLeft.confirmed | .right => s.line.peerRight.confirmed
     (match l with | .left => station ≠ 0 | .right => s.supply.straps.isEnd = false) →
     (∀ x ∈ s.track.table, gone x = true → x.verdict ≠ none) →
     ∃ t, exec .trackExpiry s = .next t ∧
       ((∀ lit, machine s.lanes ≠ .HUSHED lit) → machine t.lanes = machine s.lanes) ∧
       ∀ lit, machine s.lanes = .HUSHED lit → (∃ x ∈ s.track.table, gone x = true ∧ names x = true) →
         machine t.lanes =
           if (∀ x ∈ s.track.table, gone x = false → names x = false) ∧ code ≠ .code .SOUND ∧ code ≠ .code .HUSH_OCC then .ARMED
           else .HUSHED lit)

/-- The fade rule at expiry, for the one track that expires, OPEN or IN, with an item that fails the loan test and is not excused:
the verdict is ALARM, direction FADE-OUT. With side LEFT or RIGHT it acts on that lane: an ARMED machine sounds with its timer at
sound_limit and reports it, a HUSHED one holds the alarm; a VERDICT notice for the lane is queued, a tag alarm is counted in the
own right lane alone, and the PASSAGE report says FADE-OUT, ALARM. With side UNSURE that nothing settles, at a station with two
lanes, it acts on both, is counted once, and the report names no lane (R35, R56, R60, R63, R66 to R73, R142, R151).

The rules number lanes 0 to 14, and lane 15 names none (R72, R74). At station 15 with END clear the right lane that the alarm acts
on, and its number 15 in the notice and the reports, are the model's choice, log entry 29. -/
def Obligations.FadeAlarmAtExpiry : Prop :=
  ∀ (s : State) (x : Track) (d : Int), heldInReset s = false → (s.track.table.map Track.item).Nodup →
    s.track.table.filter (fun y => s.host.params.linger < (s.line.round - y.lastRead).toNat) = [x] →
    x.verdict = none → (x.phase = .OPEN ∨ x.phase = .IN) → x.startSide ≠ .STREET → x.lastD = some d →
    (s.host.params.tSide : Int) ≤ d → (s.field.coilH = .OK ↔ s.field.coilS = .OK) →
    ~~~x.loan &&& s.host.params.loanMask ≠ 0 → (∀ e ∈ s.verdict.excuses, e.item ≠ x.item) → s.notices.outbox.length < 8 →
    let station := s.supply.straps.station.val
    let passage (lane : Option Nat) (held : Bool) : ReportBody :=
      .PASSAGE x.item x.loan lane .FADE_OUT (some .ALARM) held x.peerAlarm.isSome (x.lastRead - x.firstRound)
    let queued (lanes : List Nat) : NoticeQueue :=
      { s.notices with
        outbox :=
          s.notices.outbox ++
            [{ body := .VERDICT (lanes.map fun n => { item := x.item, lane := BitVec.ofNat 4 n, verdict := 1 })
               built := s.line.round }] }
    let counted : BeamUnit :=
      { s.beams with counts := { s.beams.counts with tagAlarms := s.beams.counts.tagAlarms + 1 } }
    (∀ l : LaneSide,
        (match l with
          | .left => x.side = .LEFT ∧ station ≠ 0
          | .right => x.side = .RIGHT ∧ s.supply.straps.isEnd = false) →
        let number := match l with | .left => station - 1 | .right => station
        let machine (u : LaneUnit) : LaneState := match l with | .left => u.left | .right => u.right
        let common (t : State) : Prop :=
          t.notices = queued [number] ∧ t.beams = match l with | .left => s.beams | .right => counted
        (machine s.lanes = .ARMED →
            ∃ t, exec .trackExpiry s = .next t ∧ common t ∧ machine t.lanes = .SOUNDING s.host.params.soundLimit ∧
              t.host =
                recorded s.line.round (passage (some number) false)
                  (recorded s.line.round (.LANE number true .OWN) s.host)) ∧
          (∀ lit, machine s.lanes = .HUSHED lit →
            ∃ t, exec .trackExpiry s = .next t ∧ common t ∧
              t.host = recorded s.line.round (passage (some number) true) s.host)) ∧
      (x.side = .UNSURE → station ≠ 0 → s.supply.straps.isEnd = false → x.peerAlarm = none → s.track.leftBroken = none →
        s.track.rightBroken = none → s.lanes.left = .ARMED → s.lanes.right = .ARMED →
        ∃ t, exec .trackExpiry s = .next t ∧ t.notices = queued [station - 1, station] ∧ t.beams = counted ∧
          t.lanes =
            { s.lanes with left := .SOUNDING s.host.params.soundLimit, right := .SOUNDING s.host.params.soundLimit } ∧
          t.host =
            recorded s.line.round (passage none false)
              (recorded s.line.round (.LANE station true .OWN)
                (recorded s.line.round (.LANE (station - 1) true .OWN) s.host)))

/-! ## Slots, request field and notice slots (chapters 5 to 7) -/

/-- The station slot holds its fields at their bit times, and codes 6 and 7 are slot errors: the levels of the slot that a slot
word gives, and what a reader takes from the levels of a slot whose spacer and guard are recessive (R196).

The outcome of a slot: ABSENT whatever follows a recessive presence bit, PRESENT with the word of its bits, NOT RECEIVED on a
dominant spacer or guard (R93). -/
def Obligations.SlotLayout : Prop :=
  ((∀ w : SlotWord,
       let b := slotBits w
       b.getLsbD 0 = false ∧
         fieldOfBits 3 [b.getLsbD 1, b.getLsbD 2, b.getLsbD 3] = laneCodeBits w.left ∧
         fieldOfBits 3 [b.getLsbD 4, b.getLsbD 5, b.getLsbD 6] = laneCodeBits w.right ∧ b.getLsbD 7 = true ∧
         (b.getLsbD 8 = true ↔ w.fieldClass = .DEFERRED) ∧ (b.getLsbD 9 = true ↔ w.hall = .BROKEN) ∧
         (b.getLsbD 10 = true ↔ w.street = .BROKEN) ∧ (b.getLsbD 11 = true ↔ w.calm = .CALM) ∧
         b.getLsbD 12 = true ∧ b.getLsbD 13 = true ∧ b.getLsbD 14 = true ∧ b.getLsbD 15 = true ∧
         slotOutcome b = .PRESENT w) ∧
     (laneCodeBits .SOUND = 0 ∧ laneCodeBits .HUSH_OCC = 1 ∧ laneCodeBits .OCCUPIED = 2 ∧ laneCodeBits .FAULT = 3 ∧
       laneCodeBits .HUSH_CLEAR = 4 ∧ laneCodeBits .QUIET = 5) ∧
     ∀ b : BitVec 16, b.getLsbD 0 = false →
       6 ≤ (fieldOfBits 3 [b.getLsbD 1, b.getLsbD 2, b.getLsbD 3]).toNat ∨
           6 ≤ (fieldOfBits 3 [b.getLsbD 4, b.getLsbD 5, b.getLsbD 6]).toNat →
       slotOutcome b = .NOT_RECEIVED) ∧
  (∀ b : BitVec 16,
     (b.getLsbD 0 = true → slotOutcome b = .ABSENT) ∧
       (b.getLsbD 0 = false →
         b.getLsbD 7 = false ∨ b.getLsbD 12 = false ∨ b.getLsbD 13 = false ∨ b.getLsbD 14 = false ∨ b.getLsbD 15 = false →
         slotOutcome b = .NOT_RECEIVED) ∧
       ∀ w, slotOutcome b = .PRESENT w ↔ b = slotBits w)

/-- The slot of a station that is no neighbour, read by an AWAKE pedestal: its outcome replaces its entry in the slot table, its
calm value is held when the station is within reach, and a change from CALM to BRISK makes a CALM pedestal BRISK and sets the
dormant timer to 0. Nothing else changes (R93, R94, R133, R134, R191).

The slot of any station, a neighbour too, read by a DORMANT pedestal in SILENT or CLASHED with timing FOLLOWING: the same entry
and calm value, and nothing else, neither peer code nor cadence, without a change from CALM to BRISK (R103, R134, R138, R193). A
change wakes it with cadence CALM and the value held: from SILENT it enters LISTEN, from CLASHED it stays CLASHED (R134, R138,
R194). -/
def Obligations.CalmValueTaken : Prop :=
  ∀ (j : Fin 16) (bits : BitVec 16) (s : State), heldInReset s = false → j.val ≠ s.supply.straps.station.val →
    let calm : Cadence :=
      match slotOutcome bits with
      | .PRESENT w => w.calm
      | .ABSENT => .CALM
      | .NOT_RECEIVED => .CALM
    let change := withinReach s j = true ∧ s.access.peerCalm[j] = .CALM ∧ calm = .BRISK
    let line : LineUnit := { s.line with slots := s.line.slots.set j (slotOutcome bits), timer := 31 + 16 * j.val }
    let held : AccessUnit :=
      { s.access with peerCalm := if withinReach s j then s.access.peerCalm.set j calm else s.access.peerCalm }
    (s.supply.dormancy = .AWAKE →
        (s.line.state = .SYNCED ∨
          ((s.line.state = .SILENT ∨ s.line.state = .CLASHED) ∧ s.line.timing = .FOLLOWING)) →
        j.val + 1 ≠ s.supply.straps.station.val →
        (j.val ≠ s.supply.straps.station.val + 1 ∨ s.supply.straps.isEnd = true) →
        exec (.slotReceived j bits) s =
          .next
            { s with
              line := line
              access :=
                { held with
                  cadence := if change then .BRISK else s.access.cadence
                  quietRounds := if change ∧ s.access.cadence = .CALM then 0 else s.access.quietRounds }
              supply :=
                if change then { s.supply with dormantRounds := 0, quietMinutes := 0, pendingEntry := false }
                else s.supply }) ∧
      (s.supply.dormancy = .DORMANT → (s.line.state = .SILENT ∨ s.line.state = .CLASHED) → s.line.timing = .FOLLOWING →
        (¬change → exec (.slotReceived j bits) s = .next { s with line := line, access := held }) ∧
          (change → s.line.state = .SILENT →
            exec (.slotReceived j bits) s = .next (woken .CALM { s with access := held })) ∧
          (change → s.line.state = .CLASHED →
            ∃ t, exec (.slotReceived j bits) s = .next t ∧ t.line.state = .CLASHED ∧
              t.access = { held with cadence := .CALM, quietRounds := 0 } ∧
              t.supply =
                { s.supply with dormancy := .AWAKE, dormantRounds := 0, quietMinutes := 0, pendingEntry := false }))

/-- Confirmation: the observation that a neighbour's slot gives becomes the confirmed code when it equals the last seen code, and
the last seen code in every case; a slot not received gives none. The left neighbour's broken beams set the left lane's
last-broken round. A confirmed code that stays acts on no machine (R61, R94, R95, R143).

The neighbour's calm value is taken as that of any station within reach: a change from CALM to BRISK makes a CALM pedestal BRISK
with no quiet rounds. That change, or a newly confirmed code other than QUIET and ABSENT, sets the dormant timer to 0 and clears a
pending entry (R133, R134, R191). -/
def Obligations.PeerCodeConfirmed : Prop :=
  ∀ (bits : BitVec 16) (j : Fin 16) (s : State), heldInReset s = false → s.supply.dormancy = .AWAKE →
    (s.line.state = .SYNCED ∨ (s.line.state = .CLASHED ∧ s.line.timing = .FOLLOWING)) →
    let after (r : PeerRecord) (pick : SlotWord → LaneCode) : PeerRecord :=
      match slotOutcome bits with
      | .PRESENT w =>
        { confirmed := if r.lastSeen = some (.code (pick w)) then .code (pick w) else r.confirmed
          lastSeen := some (.code (pick w)) }
      | .ABSENT =>
        { confirmed := if r.lastSeen = some .ABSENT then .ABSENT else r.confirmed, lastSeen := some .ABSENT }
      | .NOT_RECEIVED => r
    let calm : Cadence :=
      match slotOutcome bits with
      | .PRESENT w => w.calm
      | .ABSENT => .CALM
      | .NOT_RECEIVED => .CALM
    let change := withinReach s j = true ∧ s.access.peerCalm[j] = .CALM ∧ calm = .BRISK
    let taken (r r' : PeerRecord) (t : State) : Prop :=
      t.access =
          { s.access with
            peerCalm := if withinReach s j then s.access.peerCalm.set j calm else s.access.peerCalm
            cadence := if change then .BRISK else s.access.cadence
            quietRounds := if change ∧ s.access.cadence = .CALM then 0 else s.access.quietRounds } ∧
        t.supply =
          (if change ∨ (r'.confirmed ≠ r.confirmed ∧ r'.confirmed ≠ .code .QUIET ∧ r'.confirmed ≠ .ABSENT) then
            { s.supply with dormantRounds := 0, quietMinutes := 0, pendingEntry := false }
          else s.supply) ∧
        (r'.confirmed = r.confirmed → t.lanes = s.lanes ∧ t.sounder = s.sounder ∧ t.host = s.host)
    (j.val + 1 = s.supply.straps.station.val →
        let heard := after s.line.peerLeft SlotWord.right
        ∃ t, exec (.slotReceived j bits) s = .next t ∧
          t.line =
            { s.line with
              slots := s.line.slots.set j (slotOutcome bits), timer := 31 + 16 * j.val, peerLeft := heard } ∧
          taken s.line.peerLeft heard t ∧
          t.track =
            { s.track with
              leftBroken :=
                match slotOutcome bits with
                | .PRESENT w =>
                  if w.hall = .BROKEN ∨ w.street = .BROKEN then some s.line.round else s.track.leftBroken
                | .ABSENT => s.track.leftBroken
                | .NOT_RECEIVED => s.track.leftBroken } ∧
          t.lanes.right = s.lanes.right ∧ t.field = s.field ∧ t.verdict = s.verdict ∧ t.notices = s.notices ∧
          t.beams = s.beams ∧ t.pending = s.pending) ∧
      (j.val = s.supply.straps.station.val + 1 → s.supply.straps.isEnd = false →
        let heard := after s.line.peerRight SlotWord.left
        ∃ t, exec (.slotReceived j bits) s = .next t ∧
          t.line =
            { s.line with
              slots := s.line.slots.set j (slotOutcome bits), timer := 31 + 16 * j.val, peerRight := heard } ∧
          taken s.line.peerRight heard t ∧ t.track = s.track ∧ t.lanes.left = s.lanes.left ∧ t.field = s.field ∧
          t.verdict = s.verdict ∧ t.notices = s.notices ∧ t.beams = s.beams ∧ t.pending = s.pending)

/-- A newly confirmed peer code acts on the machine of its lane, left from the slot of s-1, right from that of s+1. SOUND sounds
an ARMED machine with cause PEER; a hush code after another code hushes a SOUNDING one, which re-arms at once if its lane is not
occupied and the code is HUSH-CLEAR; a HUSHED machine re-arms if its lane is not occupied and the code is neither SOUND nor
HUSH-OCC. In every other case the machine keeps its state. The other machine keeps its own (R95, R140, R143, R148, R152). -/
def Obligations.PeerCodeActsOnLane : Prop :=
  ∀ (l : LaneSide) (bits : BitVec 16) (j : Fin 16) (seen : PeerCode) (s : State), heldInReset s = false →
    s.supply.dormancy = .AWAKE → (s.line.state = .SYNCED ∨ (s.line.state = .CLASHED ∧ s.line.timing = .FOLLOWING)) →
    let station := s.supply.straps.station.val
    (match l with
      | .left => j.val + 1 = station
      | .right => j.val = station + 1 ∧ s.supply.straps.isEnd = false) →
    (match slotOutcome bits with
      | .PRESENT w => seen = .code (match l with | .left => w.right | .right => w.left)
      | .ABSENT => seen = .ABSENT
      | .NOT_RECEIVED => False) →
    let record := match l with | .left => s.line.peerLeft | .right => s.line.peerRight
    record.lastSeen = some seen → record.confirmed ≠ seen →
    let number := match l with | .left => station - 1 | .right => station
    let before := match l with | .left => s.lanes.left | .right => s.lanes.right
    let put (m : LaneState) : LaneUnit :=
      match l with | .left => { s.lanes with left := m } | .right => { s.lanes with right := m }
    let hush (c : PeerCode) : Bool := c = .code .HUSH_OCC || c = .code .HUSH_CLEAR
    let own : Side := match l with | .left => .LEFT | .right => .RIGHT
    let free : Bool :=
      s.track.table.all fun x =>
        x.side ≠ own && !(x.side = .UNSURE && station ≠ 0 && s.supply.straps.isEnd = false)
    ∃ t, exec (.slotReceived j bits) s = .next t ∧
      (before = .ARMED → seen = .code .SOUND →
        t.lanes = put (.SOUNDING s.host.params.soundLimit) ∧
          t.host = recorded s.line.round (.LANE number true .PEER) s.host ∧
          (anySounding s = true → t.sounder = s.sounder) ∧ t.sounder.playing = (s.sounder.playing || !anySounding s)) ∧
      (before = .ARMED → seen ≠ .code .SOUND → t.lanes = s.lanes ∧ t.host = s.host ∧ t.sounder = s.sounder) ∧
      (∀ k, before = .SOUNDING k → hush seen = true → hush record.confirmed = false →
        t.lanes = put (if free = true ∧ seen = .code .HUSH_CLEAR then .ARMED else .HUSHED true) ∧
          t.host = recorded s.line.round (.LANE number false .PEER) s.host) ∧
      (∀ k, before = .SOUNDING k → hush seen = false ∨ hush record.confirmed = true →
        t.lanes = s.lanes ∧ t.host = s.host ∧ t.sounder = s.sounder) ∧
      (∀ lit, before = .HUSHED lit →
        t.lanes = put (if free = true ∧ seen ≠ .code .SOUND ∧ seen ≠ .code .HUSH_OCC then .ARMED else .HUSHED lit) ∧
          t.host = s.host ∧ t.sounder = s.sounder)

/-- The readback of the own slot in SYNCED: equal to what was sent, the clash mark is cleared; different with the mark clear, a
line error and the mark set; different with the mark set, a line error and CLASHED, with the driver released, the window
abandoned and a FAULT report CLASH (R97, R98). -/
def Obligations.OwnSlotReadBack : Prop :=
  ∀ (bits : BitVec 16) (s : State), heldInReset s = false → s.line.state = .SYNCED →
    let timer := 31 + 16 * s.supply.straps.station.val
    let counted : HostPort :=
      { s.host with errors := { s.host.errors with lineErrors := satSucc s.host.errors.lineErrors } }
    (bits = slotBits s.line.slotWord →
        exec (.ownSlotReadback bits) s = .next { s with line := { s.line with timer := timer, clashMark := false } }) ∧
      (bits ≠ slotBits s.line.slotWord → s.line.clashMark = false →
        exec (.ownSlotReadback bits) s =
          .next { s with line := { s.line with timer := timer, clashMark := true }, host := counted }) ∧
      (bits ≠ slotBits s.line.slotWord → s.line.clashMark = true →
        exec (.ownSlotReadback bits) s =
          .next
            { s with
              field := { s.field with window := none }
              line := { s.line with timer := timer, state := .CLASHED, timing := .FOLLOWING, startMark := .idle }
              notices := { s.notices with inFlight := .NONE }
              host := recorded s.line.round (.FAULT .line .CLASH) counted })

/-- The request field. The levels of its 20 bit times hold the request bits of stations 0 to 6, a spacer, 7 to 13, a spacer, 14
and 15, and two guard bit times: a pedestal that requests drives the bit time of its own number dominant and every other
recessive, and any other drives none (R84, R85, R96, R195).

At its end in SYNCED the request set is handed over: the stations whose request bit was read dominant. The grant is held exactly
when the pedestal requested and no station within reach stands in the set with precedence over it; the own class is the one held
(R96, R126; log entry 32, the model's choice, for a class that changed after the slot word was sent). -/
def Obligations.GrantRuleApplied : Prop :=
  (∀ s : State, s.requestDriven.length = 20 ∧
     ∀ i, i < 20 →
       (s.requestDriven.getD i true = false ↔
         heldInReset s = false ∧ s.line.state = .SYNCED ∧ s.access.requests = some true ∧
           i = s.supply.straps.station.val + s.supply.straps.station.val / 7)) ∧
  (∀ (levels : BitVec 20) (s : State), heldInReset s = false → s.line.state = .SYNCED →
     let own := s.supply.straps.station.val
     let asks (j : Fin 16) : Prop := levels.getLsbD (j.val + j.val / 7) = false
     let classOf (j : Fin 16) : SendClass :=
       match s.line.slots[j] with
       | .PRESENT w => w.fieldClass
       | .ABSENT => .FRESH
       | .NOT_RECEIVED => .FRESH
     let precedence (j : Fin 16) : Prop :=
       (classOf j = .FRESH ∧ s.line.fieldClass = .DEFERRED) ∨ (classOf j = s.line.fieldClass ∧ j.val < own)
     ∃ set grant, exec (.requestFieldEnd levels) s =
         .next
           { s with
             line := { s.line with timer := 292, requestSet := some set }
             access := { s.access with grant := grant } } ∧
       (∀ j : Fin 16, set.getLsbD j.val = true ↔ asks j) ∧
       (grant = true ↔
         s.access.requests = some true ∧
           ∀ j : Fin 16, j.val ≠ own → j.val ≤ own + s.supply.straps.reach → own ≤ j.val + s.supply.straps.reach →
             asks j → ¬precedence j))

/-- Of two stations within reach that both requested and both read each other's slots, at most one is granted (R128). -/
def Obligations.NoNeighboursBothGranted : Prop :=
  ∀ (levels : BitVec 20) (s t s' t' : State) (v w : SlotWord), heldInReset s = false → heldInReset t = false →
    s.line.state = .SYNCED → t.line.state = .SYNCED →
    withinReach s t.supply.straps.station = true → withinReach t s.supply.straps.station = true →
    levels.getLsbD (s.supply.straps.station.val + s.supply.straps.station.val / 7) = false →
    levels.getLsbD (t.supply.straps.station.val + t.supply.straps.station.val / 7) = false →
    s.line.slots[t.supply.straps.station] = .PRESENT v → v.fieldClass = t.line.fieldClass →
    t.line.slots[s.supply.straps.station] = .PRESENT w → w.fieldClass = s.line.fieldClass →
    exec (.requestFieldEnd levels) s = .next s' → exec (.requestFieldEnd levels) t = .next t' →
    ¬(s'.access.grant = true ∧ t'.access.grant = true)

/-- The start of a notice slot: a SYNCED pedestal contends with the head of its outbox, which is then in flight; a CLASHED one
that follows marks only reads; in every other line state no slot is taken (R103, R106, R111, R116). A slot given in part, by a
pedestal that is placing no bit, acts on the timer alone (log entry 31, the model's form of a slot that is cut).

A notice slot that the pedestal did not contend for, its 630 data bits picked from its 720 bit times past the spacers: idle, it
returns the notice class to FRESH and does nothing else; a bad notice is counted; a good one under the own number is ignored
(R102, R115 to R118, R197). In CLASHED the class is kept. -/
def Obligations.NoticeSlotTaken : Prop :=
  (∀ (slot : Fin 24) (s : State), heldInReset s = false →
     (s.line.state = .SYNCED →
         exec (.noticeSlotStart slot) s =
           .next
             { s with
               line := { s.line with timer := 292 + 720 * slot.val }
               notices := { s.notices with inFlight := if s.notices.outbox = [] then .NONE else .PLACING } }) ∧
       (s.line.state = .CLASHED → s.line.timing = .FOLLOWING → s.supply.dormancy = .AWAKE →
         exec (.noticeSlotStart slot) s = .next { s with line := { s.line with timer := 292 + 720 * slot.val } }) ∧
       (s.line.state = .LISTEN ∨ s.line.state = .LONE ∨ s.line.state = .SILENT →
         exec (.noticeSlotStart slot) s = .next s ∧ ∀ levels, exec (.noticeSlotEnd slot levels) s = .next s)) ∧
  (∀ (slot : Fin 24) (levels : List Bool) (s : State), heldInReset s = false → levels.length < 720 →
     (s.line.state = .SYNCED ∧ s.notices.inFlight ≠ .PLACING) ∨
       (s.line.state = .CLASHED ∧ s.line.timing = .FOLLOWING ∧ s.supply.dormancy = .AWAKE) →
     exec (.noticeSlotEnd slot levels) s =
       .next { s with line := { s.line with timer := 292 + 720 * slot.val + (levels.length - 1) } }) ∧
  (∀ (slot : Fin 24) (levels : List Bool) (s : State), heldInReset s = false → levels.length = 720 →
     s.notices.inFlight = .NONE →
     (s.line.state = .SYNCED ∨
       (s.line.state = .CLASHED ∧ s.line.timing = .FOLLOWING ∧ s.supply.dormancy = .AWAKE)) →
     let bits := (List.range 630).map fun d => levels.getD (d + d / 7) true
     let fresh : SendClass :=
       if s.line.state = .SYNCED ∧ (bits.headD true = true ∨ ∀ b ∈ bits, b = true) then .FRESH else s.line.noticeClass
     let line : LineUnit := { s.line with timer := 292 + 720 * slot.val + 719, noticeClass := fresh }
     ((∀ b ∈ bits, b = true) → exec (.noticeSlotEnd slot levels) s = .next { s with line := line }) ∧
       ((∃ b ∈ bits, b = false) → noticeBody bits = none →
         exec (.noticeSlotEnd slot levels) s =
           .next
             { s with
               line := line
               host := { s.host with errors := { s.host.errors with noticeCrc := satSucc s.host.errors.noticeCrc } } }) ∧
       ∀ body, noticeBody bits = some body → noticeStation bits = s.supply.straps.station →
         exec (.noticeSlotEnd slot levels) s = .next { s with line := line })

/-- A notice slot in which the pedestal contended. While no bit is read back wrong the driver gives data bit d of its notice at
bit time d + floor(d/7) of the slot, and recessive in every spacer; a bit read back wrong in the bit times read so far ends the
driving, in the arbitration field with nothing else, in the body with a line error (R85, R102, R112, R113, R197). That a slot
can be given in part, before a cut or its end, is the model's form, log entry 31.

At its end: placed whole and read back, the notice leaves the outbox and the notice class is DEFERRED; won and read back wrong in
the body, a line error, counted once, and nothing else; lost in the arbitration field, the notice stays at the head (R106, R112
to R115). -/
def Obligations.OwnNoticeSlotEnds : Prop :=
  (∀ (slot : Fin 24) (levels : List Bool) (n : Notice) (rest : List Notice) (s : State), heldInReset s = false →
    s.line.state = .SYNCED → s.notices.inFlight = .PLACING → s.notices.outbox = n :: rest →
    let placed := noticeBits s.line.noticeClass s.supply.straps.station n.body
    let differs (i : Nat) : Prop :=
      i < placed.length ∧ placed.getD i true = true ∧ levels.getD (i + i / 7) true = false
    let timed : LineUnit := { s.line with timer := 292 + 720 * slot.val + (levels.length - 1) }
    let marked (f : Flight) : NoticeQueue := { s.notices with inFlight := f }
    let counted : HostPort :=
      { s.host with errors := { s.host.errors with lineErrors := satSucc s.host.errors.lineErrors } }
    let sent := ∀ i, ¬differs i
    let failed := (∀ i, i < 5 → ¬differs i) ∧ ∃ i, differs i
    let lost := ∃ i, i < 5 ∧ differs i
    placed.length ≤ 630 →
    (s.noticeDriven.length = 720 ∧ (∀ d, d < 630 → s.noticeDriven.getD (d + d / 7) true = placed.getD d true) ∧
        ∀ i, i % 8 = 7 → s.noticeDriven.getD i true = true) ∧
      (levels.length < 720 →
        (sent → exec (.noticeSlotEnd slot levels) s = .next { s with line := timed }) ∧
          (failed →
            exec (.noticeSlotEnd slot levels) s =
              .next { s with line := timed, notices := marked .FAILED, host := counted }) ∧
          (lost → exec (.noticeSlotEnd slot levels) s = .next { s with line := timed, notices := marked .LOST })) ∧
      (levels.length = 720 →
        (sent →
            exec (.noticeSlotEnd slot levels) s =
              .next
                { s with
                  line := { timed with noticeClass := .DEFERRED }
                  notices := { outbox := rest, inFlight := .NONE } }) ∧
          (failed →
            exec (.noticeSlotEnd slot levels) s =
              .next { s with line := timed, notices := marked .NONE, host := counted }) ∧
          (lost →
            ∃ t, exec (.noticeSlotEnd slot levels) s = .next t ∧ t.notices = marked .NONE ∧
              t.line =
                { timed with noticeClass := if levels.getD 0 true = true then .FRESH else s.line.noticeClass } ∧
              t.host.errors.lineErrors = s.host.errors.lineErrors))) ∧
  (∀ (slot : Fin 24) (levels : List Bool) (s : State), heldInReset s = false → s.line.state = .SYNCED →
    levels.length = 720 →
    let timed : LineUnit := { s.line with timer := 292 + 720 * slot.val + 719 }
    (s.notices.inFlight = .FAILED →
        exec (.noticeSlotEnd slot levels) s =
          .next { s with line := timed, notices := { s.notices with inFlight := .NONE } }) ∧
      (s.notices.inFlight = .LOST →
        ∃ t, exec (.noticeSlotEnd slot levels) s = .next t ∧ t.notices = { s.notices with inFlight := .NONE } ∧
          t.line =
            { timed with noticeClass := if levels.getD 0 true = true then .FRESH else s.line.noticeClass } ∧
          t.host.errors.lineErrors = s.host.errors.lineErrors))

/-- A good notice of one entry from another station, read by a SYNCED pedestal. A sighting from a neighbour sets that side's peer
strength of a tracked item, that side's part of a cached item in its place, or makes a cache entry last, which pushes the oldest
out of a full cache; a sighting from any other station is ignored (R29 to R31, R119).

A VERDICT of value 1 for an own lane sets the track's peer-alarm, lane 15 names no lane, and every entry is reported while
row_reports is on (R74, R75). An EXCUSE with life 0 removes the item from the excuse list; with a life it gives a held item that
life, and else enters, pushing out of a full list the one that expires soonest, the earliest added among equals (R77 to R79; the
list is held in added order, log entry 21, the model's choice). -/
def Obligations.ReceivedNoticeActs : Prop :=
  ∀ (slot : Fin 24) (levels : List Bool) (s : State), heldInReset s = false → levels.length = 720 →
    s.notices.inFlight = .NONE → s.line.state = .SYNCED →
    let bits := (List.range 630).map fun d => levels.getD (d + d / 7) true
    noticeStation bits ≠ s.supply.straps.station →
    let station := s.supply.straps.station.val
    let heard : State :=
      { s with
        line :=
          { s.line with
            timer := 292 + 720 * slot.val + 719
            noticeClass := if bits.headD true = true then .FRESH else s.line.noticeClass } }
    let leaves (t : State) : Prop := exec (.noticeSlotEnd slot levels) s = .next t
    let change (item : ItemCode) (f : Track → Track) : TrackUnit :=
      { s.track with table := s.track.table.map fun x => if x.item = item then f x else x }
    (∀ e, noticeBody bits = some (.SIGHTING [e]) →
        let left := (noticeStation bits).val + 1 = station
        let right := (noticeStation bits).val = station + 1
        let p : PeerStrength := { strength := e.best, coil := e.coil, received := s.line.round }
        let cached (cache : List CacheEntry) : State := { heard with track := { s.track with cache := cache } }
        let room := if s.track.cache.length < 32 then s.track.cache else s.track.cache.tail
        (¬left → ¬right → leaves heard) ∧
          ((∃ x ∈ s.track.table, x.item = e.item) →
            (left → leaves { heard with track := change e.item fun x => { x with pL := some p } }) ∧
              (right → leaves { heard with track := change e.item fun x => { x with pR := some p } })) ∧
          ((∀ x ∈ s.track.table, x.item ≠ e.item) → (∃ c ∈ s.track.cache, c.item = e.item) →
            (left → leaves (cached (s.track.cache.map fun c => if c.item = e.item then { c with left := some p } else c))) ∧
              (right →
                leaves (cached (s.track.cache.map fun c => if c.item = e.item then { c with right := some p } else c)))) ∧
          ((∀ x ∈ s.track.table, x.item ≠ e.item) → (∀ c ∈ s.track.cache, c.item ≠ e.item) →
            (left → leaves (cached (room ++ [{ item := e.item, left := some p, right := none }]))) ∧
              (right → leaves (cached (room ++ [{ item := e.item, left := none, right := some p }]))))) ∧
      (∀ e, noticeBody bits = some (.VERDICT [e]) →
        let own :=
          e.lane.toNat ≠ 15 ∧ (e.lane.toNat = station ∧ s.supply.straps.isEnd = false ∨ e.lane.toNat + 1 = station)
        let reported : HostPort :=
          if s.host.params.rowReports then
            recorded s.line.round (.PEER_VERDICT (noticeStation bits) e.item e.lane e.verdict) s.host
          else s.host
        (e.verdict = 1 → own →
            leaves
              { heard with track := change e.item fun x => { x with peerAlarm := some e.lane.toNat }, host := reported }) ∧
          (e.verdict ≠ 1 ∨ ¬own → leaves { heard with host := reported })) ∧
      ∀ e, noticeBody bits = some (.EXCUSE [e]) →
        let list := s.verdict.excuses
        let entry : ExcuseEntry := { item := e.item, life := e.life.toNat }
        let excuses (list' : List ExcuseEntry) : State := { heard with verdict := { s.verdict with excuses := list' } }
        (e.life = 0 → leaves (excuses (list.filter fun x => x.item ≠ e.item))) ∧
          (e.life ≠ 0 → (∃ x ∈ list, x.item = e.item) →
            leaves (excuses (list.map fun x => if x.item = e.item then entry else x))) ∧
          (e.life ≠ 0 → (∀ x ∈ list, x.item ≠ e.item) → list.length < 64 → leaves (excuses (list ++ [entry]))) ∧
          ∀ (before rest : List ExcuseEntry) (x : ExcuseEntry), e.life ≠ 0 → (∀ x ∈ list, x.item ≠ e.item) →
            list.length = 64 → (list.map ExcuseEntry.item).Nodup → list = before ++ x :: rest →
            (∀ y ∈ before, x.life < y.life) → (∀ y ∈ rest, x.life ≤ y.life) →
            leaves (excuses (before ++ rest ++ [entry]))

/-- Every notice of 1 to 8 entries is read back from the data bits its sender places, padded with recessive bits to the length of
a slot: its kind, its entries, its station and its class (R112, R113, R117, R197). -/
def Obligations.NoticeRoundTrip : Prop :=
  ∀ (c : SendClass) (station : Fin 16) (body : NoticeBody),
    (match body with
      | .SIGHTING es => 1 ≤ es.length ∧ es.length ≤ 8
      | .VERDICT es => 1 ≤ es.length ∧ es.length ≤ 8
      | .EXCUSE es => 1 ≤ es.length ∧ es.length ≤ 8) →
    let bits := noticeBits c station body ++ List.replicate (630 - (noticeBits c station body).length) true
    bits.length = 630 ∧ noticeBody bits = some body ∧ noticeStation bits = station ∧
      (bits.headD true = true ↔ c = .DEFERRED)


/-! ## Field windows and tracks (chapters 1 to 4) -/

/-- A reply window of a search half-sweep that forms no kept read: EMPTY counts in E, COLLIDED in C, and SINGLE in neither,
whether its read is below read_floor or of an item already read (R9, R13 to R15). The last reply window ends the half-sweep: its
work is done, and what follows is what follows at the time limit (R2). -/
def Obligations.ReplyWindowClassed : Prop :=
  ∀ (reception : Reception) (sense : DriveSense) (half : Coil) (r : SearchSweep) (s : State), heldInReset s = false →
    s.field.window = some { half := half, sweep := .search r } → 1 ≤ r.toClose →
    let after (r' : SearchSweep) : Host.Outcome State Fault Refusal :=
      let t : State := { s with field := { s.field with window := some { half := half, sweep := .search r' } } }
      if r.toClose = 1 then exec (.halfSweepTimeLimit sense) t else .next t
    let closed : SearchSweep := { r with toClose := r.toClose - 1, closed := r.closed + 1 }
    (reception = .silence →
        exec (.replyWindowEnd reception sense) s = after { closed with empty := r.empty + 1 }) ∧
      (reception = .disturbed →
        exec (.replyWindowEnd reception sense) s = after { closed with collided := r.collided + 1 }) ∧
      ∀ item loan crc strength, reception = .reply item loan crc strength →
        (crc ≠ tagCrc item loan →
            exec (.replyWindowEnd reception sense) s = after { closed with collided := r.collided + 1 }) ∧
          (crc = tagCrc item loan → max 0 (min 127 strength) < s.host.params.readFloor →
            exec (.replyWindowEnd reception sense) s = after closed) ∧
          (crc = tagCrc item loan → item ∈ r.read → exec (.replyWindowEnd reception sense) s = after closed)

/-- A kept read of an item that has a track, in a reply window: the strength on the coil of the half-sweep
moves as R23 gives, the loan word, the last-read round, the reads and the window mark follow the read, and nothing else of the
record or of the part changes but the half-sweep's own count; in the last reply window the half-sweep then ends as at its time
limit (R2, R13, R22). -/
def Obligations.ReadUpdatesTrack : Prop :=
  ∀ (item : ItemCode) (loan : LoanWord) (strength : Int) (sense : DriveSense) (half : Coil) (r : SearchSweep) (s : State),
    heldInReset s = false → s.field.window = some { half := half, sweep := .search r } → 1 ≤ r.toClose →
    item ∉ r.read → (∃ x ∈ s.track.table, x.item = item) →
    let v : Strength := BitVec.ofNat 7 (max 0 (min 127 strength)).toNat
    s.host.params.readFloor ≤ v.toNat →
    let moved (before : Option Nat) : Option Nat :=
      match before with
      | none => if v = 0 then none else some (4 * v.toNat)
      | some x => some ((x : Int) + Int.tdiv (4 * (v.toNat : Int) - x) 4).toNat
    let readOf (x : Track) : Track :=
      { x with
        loan := loan
        lastRead := s.line.round
        reads := if x.reads = 255 then 255 else x.reads + 1
        sH := if half = .H then moved x.sH else x.sH
        sS := if half = .S then moved x.sS else x.sS
        mark :=
          match x.mark with
          | .read best c => if best < v then .read v half else .read best c
          | .none => .read v half
          | .decayed => .read v half }
    let t : State :=
      { s with
        field :=
          { s.field with
            window :=
              some
                { half := half
                  sweep :=
                    .search { r with toClose := r.toClose - 1, closed := r.closed + 1, read := r.read ++ [item] } } }
        track := { s.track with table := s.track.table.map fun x => if x.item = item then readOf x else x } }
    exec (.replyWindowEnd (.reply item loan (tagCrc item loan) strength) sense) s =
      if r.toClose = 1 then exec (.halfSweepTimeLimit sense) t else .next t

/-- A kept read of an item with no track, with room in the table: its record is made last, with its cache entry taken over; the
cadence is BRISK with no quiet rounds, and the dormant timer 0; in the last reply window the half-sweep then ends as at its time
limit (R2, R20, R21, R24, R25, R132, R133, R191).

With 48 records held, the read of a new item, here not in the last reply window, evicts the record of the oldest last-read
round, the earliest created among equals, and the eviction is counted; here a record that leaves without a report or a fade
verdict (R24, R33, R35). -/
def Obligations.ReadCreatesTrack : Prop :=
  (∀ (item : ItemCode) (loan : LoanWord) (strength : Int) (sense : DriveSense) (half : Coil) (r : SearchSweep) (s : State),
     heldInReset s = false → s.field.window = some { half := half, sweep := .search r } → 1 ≤ r.toClose →
     item ∉ r.read → (∀ x ∈ s.track.table, x.item ≠ item) → s.track.table.length < 48 →
     let v : Strength := BitVec.ofNat 7 (max 0 (min 127 strength)).toNat
     s.host.params.readFloor ≤ v.toNat →
     let t : State :=
       { s with
         field :=
           { s.field with
             window :=
               some
                 { half := half
                   sweep :=
                     .search { r with toClose := r.toClose - 1, closed := r.closed + 1, read := r.read ++ [item] } } }
         track :=
           { s.track with
             table := s.track.table ++ [created s item loan half v]
             cache := s.track.cache.filter fun e => e.item ≠ item }
         access := { s.access with cadence := .BRISK, quietRounds := 0 }
         supply := { s.supply with dormantRounds := 0, quietMinutes := 0, pendingEntry := false } }
     exec (.replyWindowEnd (.reply item loan (tagCrc item loan) strength) sense) s =
       if r.toClose = 1 then exec (.halfSweepTimeLimit sense) t else .next t) ∧
  (∀ (item : ItemCode) (loan : LoanWord) (strength : Int) (sense : DriveSense) (half : Coil) (r : SearchSweep) (s : State)
     (before after : List Track) (x : Track),
     heldInReset s = false → s.field.window = some { half := half, sweep := .search r } → 2 ≤ r.toClose →
     item ∉ r.read → (s.track.table.map Track.item).Nodup → (∀ y ∈ s.track.table, y.item ≠ item) →
     s.track.table.length = 48 → s.track.table = before ++ x :: after →
     (∀ y ∈ before, (s.line.round - y.lastRead).toNat < (s.line.round - x.lastRead).toNat) →
     (∀ y ∈ after, (s.line.round - y.lastRead).toNat ≤ (s.line.round - x.lastRead).toNat) →
     x.verdict = none → x.phase = .OPEN → (∀ d, x.lastD = some d → d < s.host.params.tSide) →
     let v : Strength := BitVec.ofNat 7 (max 0 (min 127 strength)).toNat
     s.host.params.readFloor ≤ v.toNat →
     ∃ t, exec (.replyWindowEnd (.reply item loan (tagCrc item loan) strength) sense) s = .next t ∧
       t.track.table = before ++ after ++ [created s item loan half v] ∧
       t.host.errors =
         { s.host.errors with
           evictions := if s.host.errors.evictions = 65535 then 65535 else s.host.errors.evictions + 1 } ∧
       t.host.ring = s.host.ring)

/-- A call of a follow half-sweep: answered by a good reply of the called item at or above read_floor, missed by
anything else. A missed call counts the call alone. An answered one passes its read to the track of the called item: the strength
on the coil of the half-sweep moves as R23 gives, the loan word, the last-read round, the reads and the window mark follow the
read, and nothing else of the record or of the part changes (R12 to R14, R22, R23). The last call ends the half-sweep: its
work is done, and what follows is what follows at the time limit (R2). -/
def Obligations.FollowCallEnds : Prop :=
  ∀ (reception : Reception) (sense : DriveSense) (half : Coil) (item : ItemCode) (rest called answered : List ItemCode)
    (s : State), heldInReset s = false →
    s.field.window =
      some { half := half, sweep := .follow { waiting := item :: rest, called := called, answered := answered } } →
    let now (answered' : List ItemCode) : FieldUnit :=
      { s.field with
        window :=
          some { half := half, sweep := .follow { waiting := rest, called := called ++ [item], answered := answered' } } }
    let ends (t : State) : Host.Outcome State Fault Refusal :=
      if rest = [] then exec (.halfSweepTimeLimit sense) t else .next t
    ((∀ loan strength, reception ≠ .reply item loan (tagCrc item loan) strength) →
        exec (.followCallEnd reception sense) s = ends { s with field := now answered }) ∧
      ∀ loan strength, reception = .reply item loan (tagCrc item loan) strength →
        let v : Strength := BitVec.ofNat 7 (max 0 (min 127 strength)).toNat
        let moved (before : Option Nat) : Option Nat :=
          match before with
          | none => if v = 0 then none else some (4 * v.toNat)
          | some x => some ((x : Int) + Int.tdiv (4 * (v.toNat : Int) - x) 4).toNat
        let readOf (x : Track) : Track :=
          { x with
            loan := loan
            lastRead := s.line.round
            reads := if x.reads = 255 then 255 else x.reads + 1
            sH := if half = .H then moved x.sH else x.sH
            sS := if half = .S then moved x.sS else x.sS
            mark :=
              match x.mark with
              | .read best c => if best < v then .read v half else .read best c
              | .none => .read v half
              | .decayed => .read v half }
        (v.toNat < s.host.params.readFloor →
            exec (.followCallEnd reception sense) s = ends { s with field := now answered }) ∧
          (s.host.params.readFloor ≤ v.toNat → (∃ x ∈ s.track.table, x.item = item) →
            exec (.followCallEnd reception sense) s =
              ends
                { s with
                  field := now (answered ++ [item])
                  track := { s.track with table := s.track.table.map fun x => if x.item = item then readOf x else x } })

/-- An H half-sweep of a search that ends, here at its time limit, with an S coil that is OK and in its band: the window figure
moves by C and E, every track with a strength on H that was not read loses decay_step of it, the quiet-round count returns to 0
unless the half-sweep was all-empty, and the S half-sweep opens as many reply windows as the new figure gives (R2, R8, R10, R16,
R26, R27, R132).

An H half-sweep of a follow that ends so, with some track of verdict NONE: the tracks that were called and did not answer decay
alone, the figure and the quiet-round count stay, and the S half-sweep takes its called list anew (R11, R26).

An S half-sweep that ends so: after a search the tracks that were not read, after a follow those that were called and did not
answer, lose decay_step of their strength on S, and the window ends. A track that is marked, decayed or read, has its balance
stored as its last D, from the strengths as they then stand, and keeps all that its judgement does not name; its mark is
cleared. A track not marked stays as it was (R26, R27, R38, R44, R45). -/
def Obligations.SearchHalfSweepEnds : Prop :=
  (∀ (sense : DriveSense) (sweep : Sweep) (s : State), heldInReset s = false →
    s.field.window = some { half := .H, sweep := sweep } → s.field.coilS = .OK → sense.sInBand = true →
    let decayed (x : Track) : Track :=
      match x.sH with
      | none => x
      | some q =>
        { x with
          sH := if s.host.params.decayStep < q then some (q - s.host.params.decayStep) else none
          mark :=
            match x.mark with
            | .read best c => .read best c
            | .none => .decayed
            | .decayed => .decayed }
    (∀ r, sweep = .search r →
        let figure : Nat := (max 0 (min 20 ((s.field.qx4 : Int) + r.collided - (r.empty / 2 : Nat)))).toNat
        exec (.halfSweepTimeLimit sense) s =
          .next
            { s with
              field :=
                { s.field with
                  qx4 := figure
                  window :=
                    some
                      { half := .S
                        sweep :=
                          .search
                            { toClose := 2 ^ ((figure + 2) / 4), closed := 0, collided := 0, empty := 0, read := [] } } }
              track := { s.track with table := s.track.table.map fun x => if x.item ∈ r.read then x else decayed x }
              access :=
                { s.access with
                  quietRounds := if r.closed ≠ 0 ∧ r.empty = r.closed then s.access.quietRounds else 0 } }) ∧
      ∀ r, sweep = .follow r → (∃ x ∈ s.track.table, x.verdict = none) →
        ∃ t waiting, exec (.halfSweepTimeLimit sense) s = .next t ∧ isCalledList t waiting ∧
          t =
            { s with
              field :=
                { s.field with
                  window := some { half := .S, sweep := .follow { waiting := waiting, called := [], answered := [] } } }
              track :=
                { s.track with
                  table :=
                    s.track.table.map fun x => if x.item ∈ r.called ∧ x.item ∉ r.answered then decayed x else x } }) ∧
  (∀ (sense : DriveSense) (sweep : Sweep) (s : State), heldInReset s = false →
    s.field.window = some { half := .S, sweep := sweep } → s.field.coilS = .OK → (s.track.table.map Track.item).Nodup →
    let missed (x : Track) : Prop :=
      match sweep with
      | .search r => x.item ∉ r.read
      | .follow r => x.item ∈ r.called ∧ x.item ∉ r.answered
    let decayed (x : Track) : Track :=
      match x.sS with
      | none => x
      | some q =>
        { x with
          sS := if s.host.params.decayStep < q then some (q - s.host.params.decayStep) else none
          mark :=
            match x.mark with
            | .read best c => .read best c
            | .none => .decayed
            | .decayed => .decayed }
    let ended (y z : Track) : Prop :=
      (y.mark = .none → z = y) ∧
        (y.mark ≠ .none →
          z =
            { y with
              lastD := some ((y.sS.getD 0 : Int) - (y.sH.getD 0 : Int)), mark := .none
              startSide := z.startSide, phase := z.phase, side := z.side, verdict := z.verdict })
    ∃ t, exec (.halfSweepTimeLimit sense) s = .next t ∧ t.field = { (swept sweep s).field with window := none } ∧
      t.access = (swept sweep s).access ∧ t.line = s.line ∧ t.verdict = s.verdict ∧ t.supply = s.supply ∧
      t.pending = s.pending ∧ t.track.cache = s.track.cache ∧
      List.Forall₂ (fun x z => (missed x → ended (decayed x) z) ∧ (¬missed x → ended x z)) s.track.table t.track.table)

/-- The S coil as its half-sweep would begin, after an H half-sweep of either kind that ends, here at its time limit, with an
empty table: in FAULT for fewer than 250 rounds, or failing its drive check or its retry, it is passed over and the window ends;
the failure makes it FAULT with the round and a FAULT report FAILED, a failed retry moves the round on, and a passed one makes
it OK, reports CLEARED and begins the half-sweep: a search, or a follow that has no call and ends the window (R4 to R6, R11,
R17).

The H coil as a window begins, here with an empty table, so that it is a SEARCH, with no machine SOUNDING and an S coil that is OK
and in its band: the same checks, with the new round count; passed over, the S half-sweep begins at once (R1, R4 to R6, R8). -/
def Obligations.DriveCheckMarksCoil : Prop :=
  (∀ (sense : DriveSense) (sweep : Sweep) (s : State), heldInReset s = false → s.track.table = [] →
    s.field.window = some { half := .H, sweep := sweep } →
    let done := swept sweep s
    let field (coil : CoilState) : FieldUnit := { done.field with window := none, coilS := coil }
    (s.field.coilS = .OK → sense.sInBand = false →
        exec (.halfSweepTimeLimit sense) s =
          .next
            { done with
              field := field (.FAULT s.line.round)
              host := recorded s.line.round (.FAULT (.coil .S) .FAILED) s.host }) ∧
      (∀ failed, s.field.coilS = .FAULT failed → (s.line.round - failed).toNat < 250 →
        exec (.halfSweepTimeLimit sense) s = .next { done with field := field (.FAULT failed) }) ∧
      (∀ failed, s.field.coilS = .FAULT failed → 250 ≤ (s.line.round - failed).toNat → sense.sInBand = false →
        exec (.halfSweepTimeLimit sense) s = .next { done with field := field (.FAULT s.line.round) }) ∧
      ∀ failed, s.field.coilS = .FAULT failed → 250 ≤ (s.line.round - failed).toNat → sense.sInBand = true →
        exec (.halfSweepTimeLimit sense) s =
          .next
            { done with
              field :=
                { field .OK with
                  window :=
                    match sweep with
                    | .search _ => some { half := .S, sweep := opened done.field.qx4 }
                    | .follow _ => none }
              host := recorded s.line.round (.FAULT (.coil .S) .CLEARED) s.host }) ∧
  (∀ (c : Instr) (input : RoundInput) (s : State), heldInReset s = false → restNotDue s → s.field.window = none →
    s.track.table = [] → (∀ k, s.lanes.left ≠ .SOUNDING k) → (∀ k, s.lanes.right ≠ .SOUNDING k) → s.field.coilS = .OK →
    input.sense.sInBand = true → beginsWindow c input s →
    let now := s.line.round + 1
    let leaves (coil : CoilState) (half : Coil) (host : HostPort) : Prop :=
      ∃ t, exec c s = .next t ∧ t.host = host ∧ t.access.patternPosition = s.access.patternPosition + 1 ∧
        t.field = { s.field with coilH := coil, window := some { half := half, sweep := opened s.field.qx4 } }
    (s.field.coilH = .OK → input.sense.hInBand = false →
        leaves (.FAULT now) .S (recorded now (.FAULT (.coil .H) .FAILED) s.host)) ∧
      (∀ failed, s.field.coilH = .FAULT failed → (now - failed).toNat < 250 → leaves (.FAULT failed) .S s.host) ∧
      (∀ failed, s.field.coilH = .FAULT failed → 250 ≤ (now - failed).toNat → input.sense.hInBand = false →
        leaves (.FAULT now) .S s.host) ∧
      ∀ failed, s.field.coilH = .FAULT failed → 250 ≤ (now - failed).toNat → input.sense.hInBand = true →
        leaves .OK .H (recorded now (.FAULT (.coil .H) .CLEARED) s.host))

/-- The window end judges a track that was read, in the search half-sweep that ends, or in either half-sweep of a follow: at a
station with the right lane alone and both coils OK, an OPEN track whose balance has come to T_cross, with a start side other
than STREET, goes OUT and takes its verdict. With a loan word that passes, the verdict is PASS, one tag pass is counted, the
track's SIGHTING notice is queued, its mark is cleared and no window is in flight (R17, R38, R44 to R50, R66 to R71, R109).

Single-coil mode at a station with the left lane alone, coil H FAULT: a strength on S of T_single or more, with a loan word that
fails, gives an ALARM of direction UNKNOWN on the left lane, s-1: its machine sounds, a VERDICT notice names it, and nothing is
counted (R53, R54, R63, R70 to R72, R142).

A side left UNSURE at a station with two lanes: the ALARM acts on the left lane and then on the right one, the VERDICT notice
names s-1 and s, one tag alarm is counted in the own right lane, and the record names no lane (R60 to R63, R69 to R72). -/
def Obligations.WindowEndGivesVerdict : Prop :=
  (∀ (sense : DriveSense) (x : Track) (best : Strength) (c : Coil) (sweep : Sweep) (s : State),
     heldInReset s = false → s.supply.straps.station.val = 0 → s.supply.straps.isEnd = false →
     s.field.coilH = .OK → s.field.coilS = .OK →
     s.field.window = some { half := .S, sweep := sweep } →
     (match sweep with
       | .search r => x.item ∈ r.read
       | .follow r => x.item ∈ r.called → x.item ∈ r.answered) →
     s.track.table = [x] → x.mark = .read best c → x.verdict = none → x.phase = .OPEN → x.side = .RIGHT →
     x.startSide ≠ .notSet → x.startSide ≠ .STREET →
     (s.host.params.tCross : Int) ≤ (x.sS.getD 0 : Int) - (x.sH.getD 0 : Int) →
     ~~~x.loan &&& s.host.params.loanMask = 0 → s.notices.outbox.length < 8 →
     exec (.halfSweepTimeLimit sense) s =
       .next
         { swept sweep s with
           field := { (swept sweep s).field with window := none }
           track :=
             { s.track with
               table :=
                 [{ x with
                     lastD := some ((x.sS.getD 0 : Int) - (x.sH.getD 0 : Int))
                     phase := .OUT
                     verdict :=
                       some { outcome := .PASS, direction := .OUT, lane := some 0, loanTested := x.loan, held := false }
                     mark := .none }] }
           beams := { s.beams with counts := { s.beams.counts with tagPasses := s.beams.counts.tagPasses + 1 } }
           notices :=
             { s.notices with
               outbox :=
                 s.notices.outbox ++
                   [{ body := .SIGHTING [{ item := x.item, best := best, coil := c }], built := s.line.round }] } }) ∧
  (∀ (sense : DriveSense) (x : Track) (best : Strength) (c : Coil) (v : Nat) (failed : Round)
     (sweep : Sweep) (s : State),
     heldInReset s = false → s.supply.straps.station.val ≠ 0 → s.supply.straps.isEnd = true →
     s.field.coilH = .FAULT failed → s.field.coilS = .OK →
     s.field.window = some { half := .S, sweep := sweep } →
     (match sweep with
       | .search r => x.item ∈ r.read
       | .follow r => x.item ∈ r.called → x.item ∈ r.answered) →
     s.track.table = [x] → x.mark = .read best c → x.verdict = none → x.phase = .OPEN → x.side = .LEFT →
     x.sS = some v → s.host.params.tSingle ≤ v → ~~~x.loan &&& s.host.params.loanMask ≠ 0 →
     (∀ e ∈ s.verdict.excuses, e.item ≠ x.item) → s.lanes.left = .ARMED → s.notices.outbox.length < 7 →
     let lane := s.supply.straps.station.val - 1
     ∃ t, exec (.halfSweepTimeLimit sense) s = .next t ∧ t.field = { (swept sweep s).field with window := none } ∧
       t.access = (swept sweep s).access ∧
       t.track =
         { s.track with
           table :=
             [{ x with
                 lastD := some ((v : Int) - (x.sH.getD 0 : Int))
                 startSide := if x.startSide = .notSet then .NONE else x.startSide
                 phase := .OUT
                 verdict :=
                   some { outcome := .ALARM, direction := .UNKNOWN, lane := some lane, loanTested := x.loan, held := false }
                 mark := .none }] } ∧
       t.lanes = { s.lanes with left := .SOUNDING s.host.params.soundLimit } ∧ t.sounder.playing = true ∧
       t.beams = s.beams ∧ t.host = recorded s.line.round (.LANE lane true .OWN) s.host ∧
       t.notices =
         { s.notices with
           outbox :=
             s.notices.outbox ++
               [{ body := .VERDICT [{ item := x.item, lane := BitVec.ofNat 4 lane, verdict := 1 }], built := s.line.round },
                 { body := .SIGHTING [{ item := x.item, best := best, coil := c }], built := s.line.round }] }) ∧
  (∀ (sense : DriveSense) (x : Track) (best : Strength) (c : Coil) (sweep : Sweep) (s : State),
     heldInReset s = false → s.supply.straps.station.val ≠ 0 → s.supply.straps.station.val ≠ 15 →
     s.supply.straps.isEnd = false → s.field.coilH = .OK → s.field.coilS = .OK → 0 < s.host.params.mSide →
     s.field.window = some { half := .S, sweep := sweep } →
     (match sweep with
       | .search r => x.item ∈ r.read
       | .follow r => x.item ∈ r.called → x.item ∈ r.answered) →
     s.track.table = [x] → x.mark = .read best c → x.verdict = none → x.phase = .OPEN →
     x.side = .UNSURE → x.pL = none → x.pR = none → x.peerAlarm = none → s.track.leftBroken = none →
     s.track.rightBroken = none → x.startSide ≠ .notSet → x.startSide ≠ .STREET →
     (s.host.params.tCross : Int) ≤ (x.sS.getD 0 : Int) - (x.sH.getD 0 : Int) →
     ~~~x.loan &&& s.host.params.loanMask ≠ 0 → (∀ e ∈ s.verdict.excuses, e.item ≠ x.item) →
     s.lanes.left = .ARMED → s.lanes.right = .ARMED → s.notices.outbox.length < 7 →
     let own := s.supply.straps.station.val
     ∃ t, exec (.halfSweepTimeLimit sense) s = .next t ∧ t.field = { (swept sweep s).field with window := none } ∧
       t.access = (swept sweep s).access ∧
       t.track =
         { s.track with
           table :=
             [{ x with
                 lastD := some ((x.sS.getD 0 : Int) - (x.sH.getD 0 : Int))
                 phase := .OUT
                 verdict :=
                   some { outcome := .ALARM, direction := .OUT, lane := none, loanTested := x.loan, held := false }
                 mark := .none }] } ∧
       t.lanes =
         { s.lanes with left := .SOUNDING s.host.params.soundLimit, right := .SOUNDING s.host.params.soundLimit } ∧
       t.sounder.playing = true ∧
       t.beams = { s.beams with counts := { s.beams.counts with tagAlarms := s.beams.counts.tagAlarms + 1 } } ∧
       t.host =
         recorded s.line.round (.LANE own true .OWN) (recorded s.line.round (.LANE (own - 1) true .OWN) s.host) ∧
       t.notices =
         { s.notices with
           outbox :=
             s.notices.outbox ++
               [{ body :=
                    .VERDICT
                      [{ item := x.item, lane := BitVec.ofNat 4 (own - 1), verdict := 1 },
                        { item := x.item, lane := BitVec.ofNat 4 own, verdict := 1 }]
                  built := s.line.round },
                 { body := .SIGHTING [{ item := x.item, best := best, coil := c }], built := s.line.round }] })

/-- A read moves a smoothed strength by the table of R23: an absent one starts at 4v, or stays absent at v = 0, a present one
moves by trunc((4v - s)/4). A strength of 1 to 508 stays within 1 to 508, between its old value and 4v, and does not move when
4v is within 3 of it; only with read_floor 0 is a read with v = 0 kept (R23). -/
def Obligations.SmoothedStrength : Prop :=
  ∀ (v : Strength) (x : Nat),
    (v ≠ 0 → smooth none v = some (4 * v.toNat)) ∧ smooth none 0 = none ∧
      (1 ≤ x → x ≤ 508 →
        ∃ y, smooth (some x) v = some y ∧ (y : Int) = x + Int.tdiv (4 * (v.toNat : Int) - x) 4 ∧ 1 ≤ y ∧ y ≤ 508 ∧
          min x (4 * v.toNat) ≤ y ∧ y ≤ max x (4 * v.toNat) ∧
          (4 * v.toNat ≤ x + 3 → x ≤ 4 * v.toNat + 3 → y = x)) ∧
      ∀ (s : State) (seen : List ItemCode) (r : Reply), r.v = 0 → readKept s seen r = true → s.host.params.readFloor = 0

/-- One two-coil evaluation: the balance, the start side it sets once, the one move of the phase table or none, the tag entry of a
move to IN on the right side, and the verdict that a move to OUT makes due for a track without one (R45, R46, R48, R51). One
single-coil evaluation: a start side not set becomes NONE, and a strength of T_single on the working coil makes the verdict due,
direction UNKNOWN, and takes an OPEN or IN phase to OUT (R53, R54).

In both, a station with two lanes decides the side by the fresh peer strengths, R less L against M_side (R58). A verdict settles a
side still UNSURE by the peer-alarm, else by the one lane that is recent, and acts on the lanes its side names (R60 to R63).

The outcome of a verdict request: PASS when every bit set in the loan mask is set in the loan word, else EXCUSED for an item
in the excuse list, else ALARM (R67, R68). -/
def Obligations.TwoCoilVerdict : Prop :=
  (∀ (s : State) (x : Track), paramsInRange s.host.params →
     let j := judgeTwoCoil s x
     let d : Int := (x.sS.getD 0 : Int) - (x.sH.getD 0 : Int)
     let side : Int := s.host.params.tSide
     let cross : Int := s.host.params.tCross
     j.track.lastD = some d ∧
       (x.startSide ≠ .notSet → j.track.startSide = x.startSide) ∧
       (x.startSide = .notSet →
         (d ≤ -side → j.track.startSide = .HALL) ∧ (side ≤ d → j.track.startSide = .STREET) ∧
           (-side < d → d < side → j.track.startSide = .MIDDLE) ∧ (x.phase = .OPEN → j.track.phase = .OPEN)) ∧
       (x.phase = .OPEN → cross ≤ d → j.track.startSide ≠ .STREET → j.track.phase = .OUT) ∧
       (x.phase = .OPEN → d ≤ -cross → j.track.startSide ≠ .HALL → j.track.phase = .IN) ∧
       (x.phase = .OPEN → cross ≤ d → j.track.startSide = .STREET → j.track.phase = .OPEN) ∧
       (x.phase = .OPEN → d ≤ -cross → j.track.startSide = .HALL → j.track.phase = .OPEN) ∧
       (x.phase = .IN → cross ≤ d → j.track.phase = .OUT) ∧ (x.phase = .OUT → d ≤ -cross → j.track.phase = .BACK) ∧
       (x.phase = .IN → d ≤ -cross → j.track.phase = .IN) ∧ (x.phase = .OUT → cross ≤ d → j.track.phase = .OUT) ∧
       (x.phase = .BACK → j.track.phase = .BACK) ∧ (-cross < d → d < cross → j.track.phase = x.phase) ∧
       (j.tagEntry = true ↔ x.phase = .OPEN ∧ j.track.phase = .IN ∧ x.side ≠ .LEFT) ∧
       (j.due = some .OUT ↔ (x.phase = .OPEN ∨ x.phase = .IN) ∧ j.track.phase = .OUT ∧ x.verdict = none) ∧
       (j.due ≠ some .OUT → j.due = none)) ∧
  (∀ (s : State) (working : Coil) (x : Track),
     let j := judgeSingle s working x
     let strength := match working with
       | .H => x.sH
       | .S => x.sS
     let reached := x.verdict = none ∧ ∃ v, strength = some v ∧ s.host.params.tSingle ≤ v
     j.track =
         { x with
           lastD := some ((x.sS.getD 0 : Int) - (x.sH.getD 0 : Int))
           startSide := if x.startSide = .notSet then .NONE else x.startSide
           phase := j.track.phase
           side := j.track.side } ∧
       (reached → x.phase = .OPEN ∨ x.phase = .IN → j.track.phase = .OUT) ∧
       (¬reached ∨ x.phase = .OUT ∨ x.phase = .BACK → j.track.phase = x.phase) ∧ j.tagEntry = false ∧
       (reached → j.due = some .UNKNOWN) ∧ (¬reached → j.due = none)) ∧
  (∀ (s : State) (x : Track) (side : Side), 0 < s.host.params.mSide →
     side = (judgeTwoCoil s x).track.side ∨ (∃ working, side = (judgeSingle s working x).track.side) →
     let fresh (p : Option PeerStrength) : Int :=
       match p with
       | none => 0
       | some p => if (s.line.round - p.received).toNat ≤ s.host.params.peerAge then p.strength.toNat else 0
     let more := fresh x.pR - fresh x.pL
     let both := s.supply.straps.station.val ≠ 0 ∧ s.supply.straps.isEnd = false
     (¬both → side = x.side) ∧ (both → (s.host.params.mSide : Int) ≤ more → side = .RIGHT) ∧
       (both → more ≤ -(s.host.params.mSide : Int) → side = .LEFT) ∧
       (both → -(s.host.params.mSide : Int) < more → more < s.host.params.mSide → side = x.side)) ∧
  (∀ (s : State) (x : Track),
     let station := s.supply.straps.station.val
     let both := station ≠ 0 ∧ s.supply.straps.isEnd = false
     let seen (last : Option Round) : Prop := ∃ r, last = some r ∧ (s.line.round - r).toNat ≤ 24
     (x.side ≠ .UNSURE ∨ ¬both → settledSide s x = x.side) ∧
       (x.side = .UNSURE → both →
         (x.peerAlarm = some station → settledSide s x = .RIGHT) ∧
           (x.peerAlarm = some (station - 1) → settledSide s x = .LEFT) ∧
           (x.peerAlarm = none → seen s.track.leftBroken → ¬seen s.track.rightBroken → settledSide s x = .LEFT) ∧
           (x.peerAlarm = none → seen s.track.rightBroken → ¬seen s.track.leftBroken → settledSide s x = .RIGHT) ∧
           (x.peerAlarm = none → (seen s.track.leftBroken ↔ seen s.track.rightBroken) → settledSide s x = .UNSURE)) ∧
       (lanesOf s .LEFT = if station ≠ 0 then [.left] else []) ∧
       (lanesOf s .RIGHT = if s.supply.straps.isEnd then [] else [.right]) ∧ (both → lanesOf s .UNSURE = [.left, .right])) ∧
  (∀ (s : State) (item : ItemCode) (loan : LoanWord),
     let passes := ∀ i : Nat, s.host.params.loanMask.getLsbD i = true → loan.getLsbD i = true
     (passes → outcomeOf s item loan = .PASS) ∧
       (¬passes → (∃ e ∈ s.verdict.excuses, e.item = item) → outcomeOf s item loan = .EXCUSED) ∧
       (¬passes → (∀ e ∈ s.verdict.excuses, e.item ≠ item) → outcomeOf s item loan = .ALARM))

/-! ## Sounder, beams, CLEAR and lamps (chapters 8 to 10) -/

/-- Entry starts of a PLAYING sounder: when the last sample of a latched entry has been given the next index starts, after entry
15 entry 0; an end marker goes to entry 0 at once; an end marker at entry 0 gives 160 samples without an entry, after which
entry 0 is read again. An entry starts with both accumulators at 0 and plays for duration × 160 samples. Before the last sample
the two commands change nothing (R158; log entry 12). While no entry is latched the accumulators stand at 0: the model's choice,
log entry 36. -/
def Obligations.SounderEntryStarts : Prop :=
  ∀ s : State, heldInReset s = false → s.sounder.playing = true →
    let plays (i : Fin 16) : Prop := s.sounder.table[i].duration ≠ 0
    let begun (i : Fin 16) : State :=
      { s with
        sounder :=
          { s.sounder with
            position := i
            samplesLeft := s.sounder.table[i].duration * 160
            latched := some (latchOf s.host.params.volume s.sounder.table[i])
            accA := 0
            accB := 0 } }
    let waits : State :=
      { s with sounder := { s.sounder with position := 0, samplesLeft := 160, latched := none, accA := 0, accB := 0 } }
    let starts (c : Instr) (i : Fin 16) : Prop :=
      (plays i → exec c s = .next (begun i)) ∧ (¬plays i → plays 0 → exec c s = .next (begun 0)) ∧
        (¬plays i → ¬plays 0 → exec c s = .next waits)
    (s.sounder.latched ≠ none → s.sounder.samplesLeft = 0 → starts .sounderEntryEnd (s.sounder.position + 1)) ∧
      (s.sounder.latched = none → s.sounder.samplesLeft = 0 → starts .sounderEndMarkerRecheck 0) ∧
      (s.sounder.samplesLeft ≠ 0 → exec .sounderEntryEnd s = .next s ∧ exec .sounderEndMarkerRecheck s = .next s)

/-- The values of a latched entry. The phase word of each of its two tones is round(F × 65536 / 16000), none for no tone, a REST
entry's like any other's; the amplitude is round(1024 × 10^(L/20)) for an effective level L of -46 dB or more and 0 below, and a
REST entry has none. A term lies within -A..A, is 0 at the index 0, A at 64, and mirrors about 64 and about 128 (R160, R161). -/
def Obligations.ToneValues : Prop :=
  (∀ (volume : Nat) (e : CadenceEntry), e.toneA ≤ 4000 → e.toneB ≤ 4000 →
      let word (f : Nat) (n : Option (BitVec 16)) : Prop :=
        (f = 0 → n = none) ∧
          (f ≠ 0 →
            ∃ m : BitVec 16, n = some m ∧ 16000 * (2 * m.toNat) ≤ 2 * 65536 * f + 16000 ∧
              2 * 65536 * f < 16000 * (2 * m.toNat + 1))
      word e.toneA (latchOf volume e).nA ∧ word e.toneB (latchOf volume e).nB) ∧
    (∀ (volume below : Nat) (e : CadenceEntry), e.level = some below → below % 2 = 0 →
      let k := below / 2 + volume
      ∃ a, (latchOf volume e).amplitude = some a ∧
        (k ≤ 23 → (2 * a - 1) ^ 10 * 10 ^ k ≤ 2048 ^ 10 ∧ 2048 ^ 10 < (2 * a + 1) ^ 10 * 10 ^ k) ∧ (24 ≤ k → a = 0)) ∧
    (∀ (volume : Nat) (e : CadenceEntry), e.level = none → (latchOf volume e).amplitude = none) ∧
    ∀ (a i : Nat), i < 256 →
      -(a : Int) ≤ waveTerm a i ∧ waveTerm a i ≤ a ∧ waveTerm a 0 = 0 ∧ waveTerm a 64 = a ∧
        (i < 128 → waveTerm a (i + 128) = -waveTerm a i) ∧ (i ≤ 128 → waveTerm a (128 - i) = waveTerm a i) ∧
        (i < 64 → waveTerm a i ≤ waveTerm a (i + 1))

/-- One sample of the sounder: 0 in IDLE; in PLAYING the sum of the terms of the latched entry's two tones, held within
-2048..2047, with both accumulators advanced by their phase words and one sample fewer left; 0 for a REST entry and while no
entry is latched (R157, R158, R160, R162). -/
def Obligations.SounderSampleGiven : Prop :=
  ∀ s : State, heldInReset s = false →
    let term (a : Nat) (n : Option (BitVec 16)) (acc : BitVec 16) : Int :=
      if n = none then 0 else waveTerm a (acc.toNat / 256)
    let sounded (e : Latched) : Int :=
      match e.amplitude with
      | none => 0
      | some a => max (-2048) (min 2047 (term a e.nA s.sounder.accA + term a e.nB s.sounder.accB))
    (s.sounder.playing = false →
        exec .sounderSample s = .next { s with sounder := { s.sounder with output := 0 } }) ∧
      (s.sounder.playing = true → s.sounder.samplesLeft ≠ 0 → s.sounder.latched = none →
        exec .sounderSample s =
          .next { s with sounder := { s.sounder with output := 0, samplesLeft := s.sounder.samplesLeft - 1 } }) ∧
      ∀ e, s.sounder.playing = true → s.sounder.samplesLeft ≠ 0 → s.sounder.latched = some e →
        exec .sounderSample s =
          .next
            { s with
              sounder :=
                { s.sounder with
                  output := sounded e
                  samplesLeft := s.sounder.samplesLeft - 1
                  accA := s.sounder.accA + e.nA.getD 0
                  accB := s.sounder.accB + e.nB.getD 0 } }

/-- The footfall machine at a sampling event of a station with beams: it moves exactly when a confirmed state changes, by the
table, from the confirmed states after the event; the beam counts go up where the table says (R167). -/
def Obligations.FootfallFollowsTable : Prop :=
  ∀ (c : Instr) (hall street : Beam) (s : State), heldInReset s = false → s.supply.straps.isEnd = false →
    c = .beamSample hall street ∨ c = .beamChange hall street →
    ∃ t, exec c s = .next t ∧
      let now := (t.beams.hall.confirmed, t.beams.street.confirmed)
      let before := (s.beams.hall.confirmed, s.beams.street.confirmed)
      let f := s.beams.footfall
      let g := t.beams.footfall
      (now = before → g = f ∧ t.beams.counts = s.beams.counts) ∧
        (now ≠ before → now = (.CLEAR, .CLEAR) →
          g = .CLEAR ∧
            t.beams.counts =
              { s.beams.counts with
                beamExits := if f = .H3 then s.beams.counts.beamExits + 1 else s.beams.counts.beamExits
                beamEntries := if f = .S3 then s.beams.counts.beamEntries + 1 else s.beams.counts.beamEntries }) ∧
        (now ≠ before → now ≠ (.CLEAR, .CLEAR) →
          t.beams.counts = s.beams.counts ∧ (f = .X → g = .X) ∧
            (now = (.BROKEN, .CLEAR) →
              (f = .CLEAR ∨ f = .H1 ∨ f = .H2 ∨ f = .H3 → g = .H1) ∧ (f = .S1 ∨ f = .S2 ∨ f = .S3 → g = .S3)) ∧
            (now = (.CLEAR, .BROKEN) →
              (f = .CLEAR ∨ f = .S1 ∨ f = .S2 ∨ f = .S3 → g = .S1) ∧ (f = .H1 ∨ f = .H2 ∨ f = .H3 → g = .H3)) ∧
            (now = (.BROKEN, .BROKEN) →
              (f = .CLEAR → g = .X) ∧ (f = .H1 ∨ f = .H2 ∨ f = .H3 → g = .H2) ∧ (f = .S1 ∨ f = .S2 ∨ f = .S3 → g = .S2)))

/-- A sampling event of the beams, as a sample or as the sample that confirms a change: each filter confirms at the second of two
equal samples and holds the sample; a beam break sets the right lane's last-broken round, makes an AWAKE pedestal BRISK with no
quiet rounds and a dormant timer of 0, and wakes a DORMANT one, BRISK. A station without a right lane takes no sample (R61, R132,
R133, R164 to R166, R191, R194; log entry 14). -/
def Obligations.BeamSampleHandedOn : Prop :=
  ∀ (c : Instr) (hall street : Beam) (s : State), heldInReset s = false →
    c = .beamSample hall street ∨ c = .beamChange hall street →
    let seen (sample : Beam) (f : BeamFilter) : BeamFilter :=
      { confirmed := if f.latest = some sample then sample else f.confirmed, latest := some sample }
    let h := seen hall s.beams.hall
    let t := seen street s.beams.street
    let changed := h.confirmed ≠ s.beams.hall.confirmed ∨ t.confirmed ≠ s.beams.street.confirmed
    let after := if changed then footfallMove h.confirmed t.confirmed s.beams.footfall else s.beams.footfall
    let broke :=
      (h.confirmed = .BROKEN ∧ s.beams.hall.confirmed = .CLEAR) ∨ (t.confirmed = .BROKEN ∧ s.beams.street.confirmed = .CLEAR)
    let beams : BeamUnit :=
      { hall := h
        street := t
        footfall := after
        counts := if changed then countMove s.beams.footfall after s.beams.counts else s.beams.counts }
    let track : TrackUnit := { s.track with rightBroken := some s.line.round }
    (s.supply.straps.isEnd = true → exec c s = .next s) ∧
      (s.supply.straps.isEnd = false → ¬broke → exec c s = .next { s with beams := beams }) ∧
      (s.supply.straps.isEnd = false → broke → s.supply.dormancy = .AWAKE →
        exec c s =
          .next
            { s with
              beams := beams
              track := track
              access := { s.access with cadence := .BRISK, quietRounds := 0 }
              supply := { s.supply with dormantRounds := 0, quietMinutes := 0, pendingEntry := false } }) ∧
      (s.supply.straps.isEnd = false → broke → s.supply.dormancy = .DORMANT → s.line.state = .SILENT →
        exec c s = .next (woken .BRISK { s with beams := beams, track := track }))

/-- CLEAR and the lamps: the filter takes the second of two equal samples; a press, accepted by the second pressed sample of a
RELEASED filter, hushes every SOUNDING machine with cause STAFF; any other sample moves the filter alone. The flashing of a HUSHED
lane changes between lit and dark, and no other lamp flashes (R145, R146, R150; log entries 14 and 15). A stopped sounder's
accumulators follow log entry 36, the model's choice. -/
def Obligations.ClearAndFlash : Prop :=
  ∀ (pressed : Bool) (l : LaneSide) (s : State), heldInReset s = false →
    let f : ClearFilter :=
      { pressed := if s.lanes.clear.latest = some pressed then pressed else s.lanes.clear.pressed, latest := some pressed }
    let sampled : State := { s with lanes := { s.lanes with clear := f } }
    (f.pressed = false ∨ s.lanes.clear.pressed = true → exec (.clearSample pressed) s = .next sampled) ∧
      (f.pressed = true → s.lanes.clear.pressed = false →
        exec (.clearSample pressed) s = .next (hushed (fun _ => true) .STAFF sampled) ∧
          exec .clearPress s = .next (hushed (fun _ => true) .STAFF sampled)) ∧
      (∀ lit, l = .left → s.supply.straps.station.val ≠ 0 → s.lanes.left = .HUSHED lit →
        exec (.flashToggle l) s = .next { s with lanes := { s.lanes with left := .HUSHED (!lit) } }) ∧
      (∀ lit, l = .right → s.supply.straps.isEnd = false → s.lanes.right = .HUSHED lit →
        exec (.flashToggle l) s = .next { s with lanes := { s.lanes with right := .HUSHED (!lit) } }) ∧
      (isHushed (laneState s l) = false → exec (.flashToggle l) s = .next s)

/-! ## Host port, resets and supply (chapters 11 and 12) -/

/-- A source of POWER-ON holds the part: the driver is released, the window abandoned, the sounder silent, the host port takes no
byte and sends none, and the source is noted; the pins are quiet. The release leaves the reset state with the straps as the pins
stand and the cause of the source present last, whatever the state was before (R3, R187 to R189; log entry 7). -/
def Obligations.PowerOnHoldsAndReleases : Prop :=
  ∀ (source : PowerSource) (pins : StrapPins) (s : State),
    (∃ t, exec (.powerOnHold source) s = .next t ∧
        t =
          { s with
            field := { s.field with window := none }
            line := { s.line with startMark := .idle }
            notices := { s.notices with inFlight := .NONE }
            sounder := { silenced s.sounder with output := 0 }
            host :=
              { s.host with
                receiver := .HUNT, buffer := { length := 0, code := 0, payload := [] }, outstanding := none
                transmitter := .IDLE }
            supply :=
              { s.supply with
                heldBy := if source ∈ s.supply.heldBy then s.supply.heldBy else s.supply.heldBy ++ [source] } } ∧
        heldInReset t = true ∧ t.lamp .left = .dark ∧ t.lamp .right = .dark ∧ t.coilDriven = none ∧ t.emittersOn = false ∧
        t.driverInUse = false ∧ t.requestBit = false ∧ t.frameSent = none) ∧
      exec (.powerOn source pins) s =
        .next
          { State.reset with
            supply :=
              { State.reset.supply with
                straps :=
                  { station := pins.station.toFin, isEnd := pins.endHigh, reach := if pins.reachHigh then 2 else 1 }
                cause :=
                  match source with
                  | .supplyRise => .POWER
                  | .supplyDip => .SUPPLY
                  | .resetPin => .PIN }
            pending := s.pending }

/-- The end of a transmission. A response sent is no longer outstanding, the reset it carries acts, and with STREAM on and records
waiting a REPORT frame begins; a REPORT frame sent takes its record out of the ring, and a waiting response begins before any
further record (R175, R180, R184, R186, R188). -/
def Obligations.TransmissionEnds : Prop :=
  ∀ (pins : StrapPins) (s : State), heldInReset s = false →
    let idle (h : HostPort) : HostPort :=
      { h with
        outstanding := none
        transmitter := if h.streaming = true ∧ h.ring ≠ [] then .SENDING_REPORT else .IDLE }
    (∀ r, s.host.transmitter = .SENDING_RESPONSE → s.host.outstanding = some r →
        (r.reset = none → exec (.responseSent pins) s = .next { s with host := idle s.host }) ∧
          (r.reset = some .FULL →
            exec (.responseSent pins) s =
              .next
                { State.reset with
                  supply := { State.reset.supply with straps := readStraps pins, cause := .FULL }
                  pending := s.pending }) ∧
          (r.reset = some .COUNTS →
            exec (.responseSent pins) s =
              .next
                { s with
                  beams :=
                    { s.beams with
                      counts := { beamExits := 0, beamEntries := 0, tagAlarms := 0, tagPasses := 0, tagEntries := 0 } }
                  host :=
                    idle
                      { s.host with
                        errors :=
                          { lineErrors := 0, noticeCrc := 0, evictions := 0, outboxDrops := 0, reportLosses := 0
                            hostFrames := 0 } } }) ∧
          (r.reset = some .ENGINE →
            exec (.responseSent pins) s =
              .next
                { s with
                  field := { coilH := .OK, coilS := .OK, qx4 := 8, window := none }
                  track := { table := [], cache := [], leftBroken := none, rightBroken := none }
                  line :=
                    { s.line with peerLeft := noPeer, peerRight := noPeer, fieldClass := .FRESH, noticeClass := .FRESH }
                  access := { s.access with grant := false, cadence := .BRISK, quietRounds := 0, patternPosition := 0 }
                  notices := { outbox := [], inFlight := .NONE }
                  lanes := { left := .ARMED, right := .ARMED, clear := { pressed := true, latest := none } }
                  sounder := silenced s.sounder
                  beams :=
                    { s.beams with
                      hall := { confirmed := .CLEAR, latest := none }
                      street := { confirmed := .CLEAR, latest := none }
                      footfall := .CLEAR }
                  host := idle s.host
                  supply := { s.supply with dormantRounds := 0, quietMinutes := 0, pendingEntry := false } })) ∧
      (s.host.transmitter = .SENDING_REPORT → s.host.outstanding = none →
        exec .reportFrameSent s =
          .next
            { s with
              host :=
                { s.host with
                  ring := s.host.ring.tail
                  transmitter := if s.host.streaming = true ∧ s.host.ring.tail ≠ [] then .SENDING_REPORT else .IDLE } }) ∧
      ∀ r, s.host.transmitter = .SENDING_REPORT → s.host.outstanding = some r →
        exec .reportFrameSent s =
          .next { s with host := { s.host with ring := s.host.ring.tail, transmitter := .SENDING_RESPONSE } }

/-- The bytes of a frame, taken one at a time by a receiver in HUNT, come to exactly what the command of that frame does: sync,
length, code, payload and CRC-8 spell the frame back, for every command row and every payload of up to 120 bytes (R173, R174,
R200). -/
def Obligations.FrameBytesAreCommands : Prop :=
  ∀ (c : Instr) (f : Frame) (s : State), hostFrameOf c = some f → f.payload.length ≤ 120 → s.host.receiver = .HUNT →
    exec (.hostFrameBad ((frameBytes f).map fun b => { value := b, stopDominant := false })) s = exec c s

/-- Frames that are not taken: a complete frame while a response is outstanding, a bad length, a bad CRC-8, a dominant stop bit
and a gap of more than 5 ms each cost one host frame count and put the receiver in HUNT, and do nothing else; in HUNT a faulty
byte, a gap and any byte but 0xC3 are passed over (R174, R175). -/
def Obligations.BadFramesDiscarded : Prop :=
  ∀ s : State, heldInReset s = false →
    let errors : ErrorCounts := { s.host.errors with hostFrames := satSucc s.host.errors.hostFrames }
    let discarded (b : ReceiveBuffer) : State :=
      { s with host := { s.host with receiver := .HUNT, buffer := b, errors := errors } }
    let held (f : Frame) : ReceiveBuffer := { length := f.payload.length, code := f.code, payload := f.payload }
    let clean (bytes : List Byte) : List LinkByte := bytes.map fun b => { value := b, stopDominant := false }
    let began (e : ErrorCounts) : State :=
      { s with
        host := { s.host with receiver := .LENGTH, buffer := { length := 0, code := 0, payload := [] }, errors := e } }
    (∀ c f, hostFrameOf c = some f → f.payload.length ≤ 120 → s.host.outstanding ≠ none →
        exec c s = .next (discarded (held f))) ∧
      (∀ (f : Frame) (crc : Byte), f.payload.length ≤ 120 →
        crc ≠ crc8 (BitVec.ofNat 8 f.payload.length :: f.code :: f.payload) → s.host.receiver = .HUNT →
        exec (.hostFrameBad (clean (0xC3 :: BitVec.ofNat 8 f.payload.length :: f.code :: f.payload ++ [crc]))) s =
          .next (discarded (held f))) ∧
      (∀ b : Byte, s.host.receiver = .LENGTH → 120 < b.toNat →
        exec (.hostFrameBad (clean [b])) s = .next (discarded s.host.buffer)) ∧
      (∀ b : Byte, s.host.receiver ≠ .HUNT →
        exec (.hostFrameBad [{ value := b, stopDominant := true }]) s = .next (discarded s.host.buffer)) ∧
      (∀ b : Byte, s.host.receiver = .HUNT →
        exec (.hostFrameBad [{ value := b, stopDominant := true }]) s = .next s ∧
          (b ≠ 0xC3 → exec (.hostFrameBad (clean [b])) s = .next s)) ∧
      ∀ b : Byte,
        (s.host.receiver ≠ .HUNT → b ≠ 0xC3 →
            exec (.hostByteGapTimeout [] { value := b, stopDominant := false }) s = .next (discarded s.host.buffer)) ∧
          (s.host.receiver ≠ .HUNT → b = 0xC3 →
            exec (.hostByteGapTimeout [] { value := b, stopDominant := false }) s = .next (began errors)) ∧
          (s.host.receiver = .HUNT → b = 0xC3 →
            exec (.hostByteGapTimeout [] { value := b, stopDominant := false }) s = .next (began s.host.errors))

/-- A complete frame wakes a DORMANT pedestal, and its command is then taken awake: a SILENT pedestal goes to LISTEN, BRISK, and
the command acts on that state (R175, R194). -/
def Obligations.FrameWakesDormant : Prop :=
  ∀ (c : Instr) (f : Frame) (s : State), hostFrameOf c = some f → f.payload.length ≤ 120 → heldInReset s = false →
    s.supply.dormancy = .DORMANT → s.line.state = .SILENT → s.host.outstanding = none →
    exec c s = exec c (woken .BRISK s) ∧ (woken .BRISK s).supply.dormancy = .AWAKE

/-- Refusals that every command can meet: a code that names no command, a payload length other than the command's own, and
argument values that the command does not define. The response alone is made; nothing else changes (R176, R201). -/
def Obligations.CommandsRefused : Prop :=
  ∀ s : State, takesCommand s →
    let refused (c : Instr) (f : Frame) (reason : Byte) : Prop :=
      exec c s =
        .next
          { s with
            host := answered f { frame := { code := f.code + 0xC0, payload := [reason] }, reset := none } s.host }
    (∀ code payload, (code = 0 ∨ 16 < code.toNat) → payload.length ≤ 120 →
        exec (.unknownCommand code payload) s =
          .next
            { s with
              host :=
                answered { code := code, payload := payload } { frame := { code := 0xFE, payload := [1, code] }, reset := none }
                  s.host }) ∧
      (∀ c f, hostFrameOf c = some f → f.payload.length ≤ 120 → 1 ≤ f.code.toNat → f.code.toNat ≤ 16 →
        f.payload.length ≠ ([0, 0, 0, 1, 0, 0, 1, 1, 3, 1, 9, 8, 1, 1, 7, 0, 1] : List Nat).getD f.code.toNat 0 →
        refused c f 2) ∧
      ∀ b : Byte,
        (b ≠ 1 → b ≠ 2 → b ≠ 3 →
            refused (.unknownCommand 0x10 [b]) { code := 0x10, payload := [b] } 1 ∧
              refused (.hush [b]) { code := 0x0D, payload := [b] } 1) ∧
          (b ≠ 0 → b ≠ 1 → refused (.stream [b]) { code := 0x07, payload := [b] } 1) ∧
          ∀ high low : Byte, (b = 0 ∨ 15 < b.toNat) →
            refused (.getParam [b]) { code := 0x09, payload := [b] } 1 ∧
              refused (.setParam [b, high, low]) { code := 0x08, payload := [b, high, low] } 1

/-- The commands that read: each is answered DONE with its data, and changes nothing else. IDENTIFY and STATUS with their
fields, TRACKS with up to six summaries from an index on and the number of tracks, each summary's fields at their bits, COUNTS
with the five lane counts or NO-LANE, GET with the value held, EXCUSE-LIST with up to eight entries from an index on and their
number (R39, R82, R170, R176 to R178, R201; log entry 17 for the last-read age, held at 250). That the bits of the straps byte and
of the coils byte that hold no field are 0 is the model's choice, log entry 37. -/
def Obligations.ReadCommandsAnswer : Prop :=
  (∀ (now : Round) (x : Track),
     let field (start length : Nat) : Nat := natOfBits (bitSlice start length (summaryBits now x))
     let age (r : Round) : Nat := (now - r).toNat
     let peer (start : Nat) (p : Option PeerStrength) : Prop :=
       match p with
       | none => field start 15 = 0
       | some p =>
         field start 1 = 1 ∧ field (start + 1) 7 = p.strength.toNat ∧ (field (start + 8) 1 = 1 ↔ p.coil = .S) ∧
           field (start + 9) 6 = min 63 (age p.received)
     (summaryBits now x).length = 158 ∧ field 0 64 = x.item.toNat ∧ field 64 8 = x.loan.toNat ∧
       field 72 8 = x.reads.toNat ∧ field 80 8 = min 250 (age x.lastRead) ∧
       field 88 9 = min 511 (x.lastRead - x.firstRound).toNat ∧ (∀ q, x.sH.getD 0 = q → q < 512 → field 97 9 = q) ∧
       (∀ q, x.sS.getD 0 = q → q < 512 → field 106 9 = q) ∧
       field 115 3 =
         (match x.startSide with
           | .notSet => 0
           | .HALL => 1
           | .STREET => 2
           | .MIDDLE => 3
           | .NONE => 4) ∧
       field 118 2 =
         (match x.phase with
           | .OPEN => 0
           | .OUT => 1
           | .IN => 2
           | .BACK => 3) ∧
       field 120 2 =
         (match x.side with
           | .LEFT => 0
           | .RIGHT => 1
           | .UNSURE => 2) ∧
       field 122 2 =
         (match x.verdict with
           | none => 0
           | some v =>
             match v.outcome with
             | .ALARM => 1
             | .PASS => 2
             | .EXCUSED => 3) ∧
       (x.peerAlarm = none → field 124 4 = 15) ∧ (∀ l, x.peerAlarm = some l → l < 16 → field 124 4 = l) ∧
       peer 128 x.pL ∧ peer 143 x.pR) ∧
  (∀ (i id : Byte) (s : State), takesCommand s → s.line.state ≠ .SILENT →
     let answers (c : Instr) (f : Frame) (r : Frame) : Prop :=
       exec c s = .next { s with host := answered f { frame := r, reset := none } s.host }
     let straps := s.supply.straps
     let lane (has : Bool) (m : LaneState) : Byte :=
       if has then
         match m with
         | .ARMED => 0
         | .SOUNDING _ => 1
         | .HUSHED _ => 2
       else 0xFF
     let peer (has : Bool) (p : PeerCode) : Byte :=
       if has then
         match p with
         | .code c => (laneCodeBits c).setWidth 8
         | .ABSENT => 6
       else 0xFF
     let two (n : BitVec 16) : List Byte := [BitVec.ofNat 8 (n.toNat / 256), BitVec.ofNat 8 n.toNat]
     let three (n : BitVec 24) : List Byte :=
       [BitVec.ofNat 8 (n.toNat / 65536), BitVec.ofNat 8 (n.toNat / 256), BitVec.ofNat 8 n.toNat]
     let counts := s.beams.counts
     answers (.identify []) { code := 1, payload := [] }
         { code := 0x81
           payload :=
             [0x6B, 0x21, 0x04, 0x16, 0x01,
               BitVec.ofNat 8
                 (16 * straps.station.val + (if straps.isEnd then 2 else 0) + (if straps.reach = 2 then 1 else 0)),
               match s.supply.cause with
               | .POWER => 1
               | .SUPPLY => 2
               | .PIN => 3
               | .FULL => 4] } ∧
       answers (.status []) { code := 2, payload := [] }
         { code := 0x82
           payload :=
             [match s.line.state with
               | .LISTEN => 1
               | .SYNCED => 2
               | .LONE => 3
               | .CLASHED => 4
               | .SILENT => 0,
               if s.access.cadence = .CALM then 1 else 0,
               (if s.field.coilH = .OK then 0 else 2) + (if s.field.coilS = .OK then 0 else 1),
               lane (straps.station.val ≠ 0) s.lanes.left, lane (straps.isEnd = false) s.lanes.right,
               peer (straps.station.val ≠ 0) s.line.peerLeft.confirmed,
               peer (straps.isEnd = false) s.line.peerRight.confirmed] ++
               two s.host.errors.lineErrors ++ two s.host.errors.noticeCrc ++ two s.host.errors.evictions ++
               two s.host.errors.outboxDrops ++ two s.host.errors.reportLosses ++ two s.host.errors.hostFrames ++
               [BitVec.ofNat 8 s.host.ring.length, if s.host.streaming then 1 else 0] } ∧
       answers (.tracks [i]) { code := 3, payload := [i] }
         { code := 0x83
           payload :=
             packBits
               (bitsOf (BitVec.ofNat 8 s.track.table.length) ++
                 (((s.track.table.drop i.toNat).take 6).map (summaryBits s.line.round)).flatten) } ∧
       (straps.isEnd = false →
         answers (.counts []) { code := 4, payload := [] }
           { code := 0x84
             payload :=
               three counts.beamExits ++ three counts.beamEntries ++ three counts.tagAlarms ++ three counts.tagPasses ++
                 three counts.tagEntries }) ∧
       (straps.isEnd = true → answers (.counts []) { code := 4, payload := [] } { code := 0xC4, payload := [3] }) ∧
       (∀ v, paramValue s.host.params id.toNat = some v →
         answers (.getParam [id]) { code := 9, payload := [id] }
           { code := 0x89, payload := [id, BitVec.ofNat 8 (v / 256), BitVec.ofNat 8 v] }) ∧
       answers (.excuseList [i]) { code := 12, payload := [i] }
         { code := 0x8C
           payload :=
             BitVec.ofNat 8 s.verdict.excuses.length ::
               (((excuseOrder s.verdict.excuses).drop i.toNat).take 8).flatMap fun e =>
                 beBytes 8 e.item.toNat ++ [BitVec.ofNat 8 e.life] })

/-- SET stores the value brought into the parameter's range and answers with the value stored; a SET of T_side above T_cross
raises T_cross to it, one of dormant_delay to 0 clears a pending entry, and every other parameter keeps its value (R47, R178,
R191).

CADENCE stores one entry of the cadence table, each field brought into its range, and answers with the entry stored: the index
taken modulo 16, a tone other than 0 held to 200..4,000 Hz, REST for the level 0x80 and else an even level of 0 to -30 dB, the
duration at most 100 (R155, R156, R200, R201). -/
def Obligations.ValuesStoredInRange : Prop :=
  (∀ (id high low : Byte) (s : State), takesCommand s → paramsInRange s.host.params → 1 ≤ id.toNat → id.toNat ≤ 15 →
     let value := 256 * high.toNat + low.toNat
     let range : Nat × Nat :=
       ([(0, 255), (0, 60), (1, 64), (8, 200), (s.host.params.tSide, 400), (2, 40), (40, 508), (5, 250), (2, 50), (50, 3000),
           (0, 15), (0, 255), (25, 3000), (0, 240), (0, 1)] : List (Nat × Nat)).getD (id.toNat - 1) (0, 0)
     let stored := max range.1 (min range.2 value)
     ∃ p : Params,
       exec (.setParam [id, high, low]) s =
           .next
             { s with
               host :=
                 answered { code := 8, payload := [id, high, low] }
                   { frame := { code := 0x88, payload := [id, BitVec.ofNat 8 (stored / 256), BitVec.ofNat 8 stored] }
                     reset := none }
                   { s.host with params := p }
               supply := if id = 14 ∧ value = 0 then { s.supply with pendingEntry := false } else s.supply } ∧
         paramValue p id.toNat = some stored ∧
         ∀ other : Nat, other ≠ id.toNat →
           paramValue p other =
             if id = 4 ∧ other = 5 then some (max stored s.host.params.tCross) else paramValue s.host.params other) ∧
  (∀ (index aHigh aLow bHigh bLow level duration : Byte) (s : State), takesCommand s →
     let payload := [index, aHigh, aLow, bHigh, bLow, level, duration]
     let tone (f : Nat) : Nat := if f = 0 then 0 else max 200 (min 4000 f)
     let e : CadenceEntry :=
       { toneA := tone (256 * aHigh.toNat + aLow.toNat)
         toneB := tone (256 * bHigh.toNat + bLow.toNat)
         level := storedLevel level
         duration := min 100 duration.toNat }
     let place : Fin 16 := ⟨index.toNat % 16, Nat.mod_lt _ (by decide)⟩
     exec (.cadence payload) s =
         .next
           { s with
             sounder := { s.sounder with table := s.sounder.table.set place e }
             host :=
               answered { code := 14, payload := payload }
                 { frame :=
                     { code := 0x8E
                       payload :=
                         [BitVec.ofNat 8 place.val, BitVec.ofNat 8 (e.toneA / 256), BitVec.ofNat 8 e.toneA,
                           BitVec.ofNat 8 (e.toneB / 256), BitVec.ofNat 8 e.toneB, levelByte e.level,
                           BitVec.ofNat 8 e.duration] }
                   reset := none }
                 s.host } ∧
       (storedLevel level = none ↔ level = 0x80) ∧
       ∀ below, storedLevel level = some below →
         below % 2 = 0 ∧ below ≤ 30 ∧ (0 ≤ level.toInt → below = 0) ∧ (level.toInt < -30 → below = 30) ∧
           (-30 ≤ level.toInt → level.toInt ≤ 0 → (below : Int) = -level.toInt ∨ (below : Int) = -level.toInt + 1))

/-- The commands that take from the part or set its stream: TAKE-COUNTS answers the five lane counts and sets them to 0, or
NO-LANE; REPORTS removes the oldest records, at most four, the one in transmission passed over, and answers them after the
number left; STREAM sets the flag and answers it (R170, R176, R183, R184). The bytes of a record of each kind are those of R202;
that bits 7 to 2 of the flags byte of a PASSAGE record are 0 is the model's choice, log entry 37. -/
def Obligations.TakeCommandsAnswer : Prop :=
  (∀ stamp : Round,
     let bytes (n x : Nat) : List Byte := (List.range n).map fun i => BitVec.ofNat 8 (x / 256 ^ (n - 1 - i))
     let holds (body : ReportBody) (kind : Byte) (rest : List Byte) : Prop :=
       reportBytes { stamp := stamp, body := body } = kind :: bytes 4 stamp.toNat ++ rest
     (∀ (item : ItemCode) (loan : LoanWord) (lane : Option Nat) (direction : ReportDirection) (verdict : Option Outcome)
         (held peerAlarm : Bool) (dwell : Round),
         holds (.PASSAGE item loan lane direction verdict held peerAlarm dwell) 1
           (bytes 8 item.toNat ++
             [loan,
               match lane with
               | none => 0xFF
               | some l => BitVec.ofNat 8 l,
               match direction with
               | .OUT => 1
               | .IN => 2
               | .BACK => 3
               | .FADE_OUT => 4
               | .UNKNOWN => 5,
               match verdict with
               | none => 0
               | some .ALARM => 1
               | some .PASS => 2
               | some .EXCUSED => 3,
               (if held then 2 else 0) + (if peerAlarm then 1 else 0)] ++ bytes 4 dwell.toNat)) ∧
       (∀ (station : Fin 16) (item : ItemCode) (lane verdict : BitVec 4),
         holds (.PEER_VERDICT station item lane verdict) 2
           (BitVec.ofNat 8 station.val :: bytes 8 item.toNat ++ [BitVec.ofNat 8 lane.toNat, BitVec.ofNat 8 verdict.toNat])) ∧
       (∀ (lane : Nat) (sounding : Bool) (cause : LaneCause),
         holds (.LANE lane sounding cause) 3
           [BitVec.ofNat 8 lane, if sounding then 1 else 2,
             match cause with
             | .OWN => 1
             | .PEER => 2
             | .STAFF => 3
             | .HOST => 4
             | .LIMIT => 5]) ∧
       ∀ (source : FaultSource) (event : FaultEvent),
         holds (.FAULT source event) 4
           [match source with
             | .coil .H => 1
             | .coil .S => 2
             | .line => 3,
             match event with
             | .FAILED => 1
             | .CLEARED => 2
             | .STUCK => 3
             | .CLASH => 4]) ∧
  (∀ (n : Byte) (s : State), takesCommand s →
     let reply (code : Byte) (data : List Byte) : Response := { frame := { code := code, payload := data }, reset := none }
     let three (k : BitVec 24) : List Byte :=
       [BitVec.ofNat 8 (k.toNat / 65536), BitVec.ofNat 8 (k.toNat / 256), BitVec.ofNat 8 k.toNat]
     let counts := s.beams.counts
     let passed : Nat := if s.host.transmitter = .SENDING_REPORT then 1 else 0
     let number := min n.toNat 4
     let left := s.host.ring.take passed ++ s.host.ring.drop (passed + number)
     (s.supply.straps.isEnd = false →
         exec (.takeCounts []) s =
           .next
             { s with
               beams :=
                 { s.beams with
                   counts := { beamExits := 0, beamEntries := 0, tagAlarms := 0, tagPasses := 0, tagEntries := 0 } }
               host :=
                 answered { code := 5, payload := [] }
                   (reply 0x85
                     (three counts.beamExits ++ three counts.beamEntries ++ three counts.tagAlarms ++ three counts.tagPasses ++
                       three counts.tagEntries))
                   s.host }) ∧
       (s.supply.straps.isEnd = true →
         exec (.takeCounts []) s = .next { s with host := answered { code := 5, payload := [] } (reply 0xC5 [3]) s.host }) ∧
       exec (.reports [n]) s =
         .next
           { s with
             host :=
               answered { code := 6, payload := [n] }
                 (reply 0x86
                   (BitVec.ofNat 8 left.length :: (((s.host.ring.drop passed).take number).map reportBytes).flatten))
                 { s.host with ring := left } } ∧
       (n = 0 ∨ n = 1 →
         exec (.stream [n]) s =
           .next
             { s with
               host := answered { code := 7, payload := [n] } (reply 0x87 [n]) { s.host with streaming := n = 1 } }))

/-- EXCUSE-ADD with a life: an item in the list takes the new life, a new one is added, and with 64 entries held the one that
expires soonest, the earliest added among equals, gives way. With life 0 the item is removed, as EXCUSE-DROP does, which also
answers whether it was held. Each is answered with the number of entries and spread as an EXCUSE notice (R76 to R79, R81, R176).

The model holds the list in added order, so that a new life changes no place and a new entry stands last (log entry 21, the
model's choice); the order of R76 and R77 is computed from it: the same entries, soonest expiry first, those of one life in
added order.

A notice queued on a full outbox: the oldest SIGHTING not in flight gives way to it; with none, the new notice is discarded and
counted. Here it is the EXCUSE notice of an EXCUSE-DROP (R81, R106, R107). -/
def Obligations.ExcuseCommandsAct : Prop :=
  (∀ (item : ItemCode) (life : Byte) (s : State), takesCommand s → s.notices.outbox.length < 8 →
     let bytes := beBytes 8 item.toNat
     let list := s.verdict.excuses
     let holds : Prop := ∃ e ∈ list, e.item = item
     let removed := list.filter fun e => e.item ≠ item
     let entry : ExcuseEntry := { item := item, life := life.toNat }
     let after (f : Frame) (data : List Byte) (spread : Byte) (list' : List ExcuseEntry) : Host.Outcome State Fault Refusal :=
       .next
         { s with
           verdict := { s.verdict with excuses := list' }
           notices :=
             { s.notices with
               outbox :=
                 s.notices.outbox ++ [{ body := .EXCUSE [{ item := item, life := spread }], built := s.line.round }] }
           host := answered f { frame := { code := f.code + 0x80, payload := data }, reset := none } s.host }
     let added (list' : List ExcuseEntry) : Prop :=
       exec (.excuseAdd (bytes ++ [life])) s =
         after { code := 10, payload := bytes ++ [life] } [BitVec.ofNat 8 list'.length] life list'
     let dropped (was : Byte) : Prop :=
       exec (.excuseDrop bytes) s =
         after { code := 11, payload := bytes } [was, BitVec.ofNat 8 removed.length] 0 removed
     (life = 0 → added removed) ∧
       (life ≠ 0 → holds → added (list.map fun e => if e.item = item then entry else e)) ∧
       (life ≠ 0 → ¬holds → list.length < 64 → added (list ++ [entry])) ∧
       (∀ (before rest : List ExcuseEntry) (x : ExcuseEntry), life ≠ 0 → ¬holds → list.length = 64 →
         (list.map ExcuseEntry.item).Nodup → list = before ++ x :: rest → (∀ e ∈ before, x.life < e.life) →
         (∀ e ∈ rest, x.life ≤ e.life) → added (before ++ rest ++ [entry])) ∧
       (holds → dropped 1) ∧ (¬holds → dropped 0)) ∧
  (∀ (item : ItemCode) (s : State), takesCommand s → s.notices.outbox.length = 8 →
     let sighting (n : Notice) : Prop := ∃ es, n.body = .SIGHTING es
     let notice : Notice := { body := .EXCUSE [{ item := item, life := 0 }], built := s.line.round }
     ∃ t, exec (.excuseDrop (beBytes 8 item.toNat)) s = .next t ∧
       (∀ head before after n, s.notices.outbox = head ++ before ++ n :: after →
         head.length = (if s.notices.inFlight = .NONE then 0 else 1) → (∀ m ∈ before, ¬sighting m) → sighting n →
         t.notices = { s.notices with outbox := head ++ before ++ after ++ [notice] } ∧
           t.host.errors.outboxDrops = s.host.errors.outboxDrops) ∧
       ∀ head loose, s.notices.outbox = head ++ loose →
         head.length = (if s.notices.inFlight = .NONE then 0 else 1) → (∀ m ∈ loose, ¬sighting m) →
         t.notices = s.notices ∧ t.host.errors.outboxDrops = satSucc s.host.errors.outboxDrops) ∧
  (∀ stored : List ExcuseEntry,
     let inOrder := excuseOrder stored
     inOrder.Perm stored ∧ inOrder.Pairwise (fun a b => a.life ≤ b.life) ∧
       ∀ k : Nat, (inOrder.filter fun e => e.life = k) = stored.filter fun e => e.life = k)

/-- HUSH of the left lane, the right lane or both: the SOUNDING machines named are hushed with cause HOST, and the answer gives
the lane machine states after it, 0xFF for a lane the station lacks; with no lane named that the station has, NO-LANE. The
response is outstanding from the moment the command is taken, so that no REPORT frame begins for the LANE records before it
(R175, R184). The accumulators of a sounder that a HUSH stops follow log entry 36, the model's choice. REST is refused with
LANE-ACTIVE while a machine sounds, and otherwise makes DORMANT entry before it is answered (R147, R152, R179, R192, R201).

The RESET commands make their response and do nothing else: it is outstanding and carries the scope, and the reset waits for
its end (R176, R180). -/
def Obligations.HushRestAndReset : Prop :=
  (∀ (arg : Byte) (s : State), takesCommand s →
     let has (l : LaneSide) : Bool :=
       match l with
       | .left => s.supply.straps.station.val ≠ 0
       | .right => !s.supply.straps.isEnd
     let named (l : LaneSide) : Bool :=
       match l with
       | .left => arg = 1 || arg = 3
       | .right => arg = 2 || arg = 3
     let code (t : State) (l : LaneSide) : Byte :=
       if has l then
         match laneState t l with
         | .ARMED => 0
         | .SOUNDING _ => 1
         | .HUSHED _ => 2
       else 0xFF
     let reply (k : Byte) (data : List Byte) : Response := { frame := { code := k, payload := data }, reset := none }
     let claimed : HostPort := { s.host with outstanding := some (reply 0x8D []) }
     let quieted := hushed named .HOST { s with host := claimed }
     ((named .left && has .left || named .right && has .right) = true →
         exec (.hush [arg]) s =
           .next
             { quieted with
               host :=
                 answered { code := 13, payload := [arg] } (reply 0x8D [code quieted .left, code quieted .right])
                   quieted.host }) ∧
       (1 ≤ arg.toNat → arg.toNat ≤ 3 → (named .left && has .left || named .right && has .right) = false →
         exec (.hush [arg]) s =
           .next { s with host := answered { code := 13, payload := [arg] } (reply 0xCD [3]) s.host }) ∧
       (anySounding s = true →
         exec (.rest []) s = .next { s with host := answered { code := 15, payload := [] } (reply 0xCF [4]) s.host }) ∧
       (anySounding s = false →
         exec (.rest []) s =
           .next { rested s with host := answered { code := 15, payload := [] } (reply 0x8F []) s.host })) ∧
  (∀ s : State, takesCommand s →
     let taken (c : Instr) (scope : Byte) (kind : ResetScope) : Prop :=
       exec c s =
         .next
           { s with
             host :=
               answered { code := 16, payload := [scope] } { frame := { code := 0x90, payload := [] }, reset := some kind }
                 s.host }
     taken (.resetFull []) 1 .FULL ∧ taken (.resetEngine []) 2 .ENGINE ∧ taken (.resetCounts []) 3 .COUNTS)
end

