-- ==== Sys2Proof/Laws/State.lean ====
section
/-! SUPPORT. One lemma for each block under each change of one block: the blocks that `State.onField` and its like leave as they
are, and the one they change. -/

namespace Sys2Proof.Machine

@[simp] theorem onField_field (s : State) (f : FieldUnit → FieldUnit) : (s.onField f).field = f s.field := rfl
@[simp] theorem onField_track (s : State) (f : FieldUnit → FieldUnit) : (s.onField f).track = s.track := rfl
@[simp] theorem onField_verdict (s : State) (f : FieldUnit → FieldUnit) : (s.onField f).verdict = s.verdict := rfl
@[simp] theorem onField_line (s : State) (f : FieldUnit → FieldUnit) : (s.onField f).line = s.line := rfl
@[simp] theorem onField_access (s : State) (f : FieldUnit → FieldUnit) : (s.onField f).access = s.access := rfl
@[simp] theorem onField_notices (s : State) (f : FieldUnit → FieldUnit) : (s.onField f).notices = s.notices := rfl
@[simp] theorem onField_lanes (s : State) (f : FieldUnit → FieldUnit) : (s.onField f).lanes = s.lanes := rfl
@[simp] theorem onField_sounder (s : State) (f : FieldUnit → FieldUnit) : (s.onField f).sounder = s.sounder := rfl
@[simp] theorem onField_beams (s : State) (f : FieldUnit → FieldUnit) : (s.onField f).beams = s.beams := rfl
@[simp] theorem onField_host (s : State) (f : FieldUnit → FieldUnit) : (s.onField f).host = s.host := rfl
@[simp] theorem onField_supply (s : State) (f : FieldUnit → FieldUnit) : (s.onField f).supply = s.supply := rfl
@[simp] theorem onField_pending (s : State) (f : FieldUnit → FieldUnit) : (s.onField f).pending = s.pending := rfl

@[simp] theorem onTrack_field (s : State) (f : TrackUnit → TrackUnit) : (s.onTrack f).field = s.field := rfl
@[simp] theorem onTrack_track (s : State) (f : TrackUnit → TrackUnit) : (s.onTrack f).track = f s.track := rfl
@[simp] theorem onTrack_verdict (s : State) (f : TrackUnit → TrackUnit) : (s.onTrack f).verdict = s.verdict := rfl
@[simp] theorem onTrack_line (s : State) (f : TrackUnit → TrackUnit) : (s.onTrack f).line = s.line := rfl
@[simp] theorem onTrack_access (s : State) (f : TrackUnit → TrackUnit) : (s.onTrack f).access = s.access := rfl
@[simp] theorem onTrack_notices (s : State) (f : TrackUnit → TrackUnit) : (s.onTrack f).notices = s.notices := rfl
@[simp] theorem onTrack_lanes (s : State) (f : TrackUnit → TrackUnit) : (s.onTrack f).lanes = s.lanes := rfl
@[simp] theorem onTrack_sounder (s : State) (f : TrackUnit → TrackUnit) : (s.onTrack f).sounder = s.sounder := rfl
@[simp] theorem onTrack_beams (s : State) (f : TrackUnit → TrackUnit) : (s.onTrack f).beams = s.beams := rfl
@[simp] theorem onTrack_host (s : State) (f : TrackUnit → TrackUnit) : (s.onTrack f).host = s.host := rfl
@[simp] theorem onTrack_supply (s : State) (f : TrackUnit → TrackUnit) : (s.onTrack f).supply = s.supply := rfl
@[simp] theorem onTrack_pending (s : State) (f : TrackUnit → TrackUnit) : (s.onTrack f).pending = s.pending := rfl

@[simp] theorem onVerdict_field (s : State) (f : VerdictUnit → VerdictUnit) : (s.onVerdict f).field = s.field := rfl
@[simp] theorem onVerdict_track (s : State) (f : VerdictUnit → VerdictUnit) : (s.onVerdict f).track = s.track := rfl
@[simp] theorem onVerdict_verdict (s : State) (f : VerdictUnit → VerdictUnit) : (s.onVerdict f).verdict = f s.verdict := rfl
@[simp] theorem onVerdict_line (s : State) (f : VerdictUnit → VerdictUnit) : (s.onVerdict f).line = s.line := rfl
@[simp] theorem onVerdict_access (s : State) (f : VerdictUnit → VerdictUnit) : (s.onVerdict f).access = s.access := rfl
@[simp] theorem onVerdict_notices (s : State) (f : VerdictUnit → VerdictUnit) : (s.onVerdict f).notices = s.notices := rfl
@[simp] theorem onVerdict_lanes (s : State) (f : VerdictUnit → VerdictUnit) : (s.onVerdict f).lanes = s.lanes := rfl
@[simp] theorem onVerdict_sounder (s : State) (f : VerdictUnit → VerdictUnit) : (s.onVerdict f).sounder = s.sounder := rfl
@[simp] theorem onVerdict_beams (s : State) (f : VerdictUnit → VerdictUnit) : (s.onVerdict f).beams = s.beams := rfl
@[simp] theorem onVerdict_host (s : State) (f : VerdictUnit → VerdictUnit) : (s.onVerdict f).host = s.host := rfl
@[simp] theorem onVerdict_supply (s : State) (f : VerdictUnit → VerdictUnit) : (s.onVerdict f).supply = s.supply := rfl
@[simp] theorem onVerdict_pending (s : State) (f : VerdictUnit → VerdictUnit) : (s.onVerdict f).pending = s.pending := rfl

@[simp] theorem onLine_field (s : State) (f : LineUnit → LineUnit) : (s.onLine f).field = s.field := rfl
@[simp] theorem onLine_track (s : State) (f : LineUnit → LineUnit) : (s.onLine f).track = s.track := rfl
@[simp] theorem onLine_verdict (s : State) (f : LineUnit → LineUnit) : (s.onLine f).verdict = s.verdict := rfl
@[simp] theorem onLine_line (s : State) (f : LineUnit → LineUnit) : (s.onLine f).line = f s.line := rfl
@[simp] theorem onLine_access (s : State) (f : LineUnit → LineUnit) : (s.onLine f).access = s.access := rfl
@[simp] theorem onLine_notices (s : State) (f : LineUnit → LineUnit) : (s.onLine f).notices = s.notices := rfl
@[simp] theorem onLine_lanes (s : State) (f : LineUnit → LineUnit) : (s.onLine f).lanes = s.lanes := rfl
@[simp] theorem onLine_sounder (s : State) (f : LineUnit → LineUnit) : (s.onLine f).sounder = s.sounder := rfl
@[simp] theorem onLine_beams (s : State) (f : LineUnit → LineUnit) : (s.onLine f).beams = s.beams := rfl
@[simp] theorem onLine_host (s : State) (f : LineUnit → LineUnit) : (s.onLine f).host = s.host := rfl
@[simp] theorem onLine_supply (s : State) (f : LineUnit → LineUnit) : (s.onLine f).supply = s.supply := rfl
@[simp] theorem onLine_pending (s : State) (f : LineUnit → LineUnit) : (s.onLine f).pending = s.pending := rfl

@[simp] theorem onAccess_field (s : State) (f : AccessUnit → AccessUnit) : (s.onAccess f).field = s.field := rfl
@[simp] theorem onAccess_track (s : State) (f : AccessUnit → AccessUnit) : (s.onAccess f).track = s.track := rfl
@[simp] theorem onAccess_verdict (s : State) (f : AccessUnit → AccessUnit) : (s.onAccess f).verdict = s.verdict := rfl
@[simp] theorem onAccess_line (s : State) (f : AccessUnit → AccessUnit) : (s.onAccess f).line = s.line := rfl
@[simp] theorem onAccess_access (s : State) (f : AccessUnit → AccessUnit) : (s.onAccess f).access = f s.access := rfl
@[simp] theorem onAccess_notices (s : State) (f : AccessUnit → AccessUnit) : (s.onAccess f).notices = s.notices := rfl
@[simp] theorem onAccess_lanes (s : State) (f : AccessUnit → AccessUnit) : (s.onAccess f).lanes = s.lanes := rfl
@[simp] theorem onAccess_sounder (s : State) (f : AccessUnit → AccessUnit) : (s.onAccess f).sounder = s.sounder := rfl
@[simp] theorem onAccess_beams (s : State) (f : AccessUnit → AccessUnit) : (s.onAccess f).beams = s.beams := rfl
@[simp] theorem onAccess_host (s : State) (f : AccessUnit → AccessUnit) : (s.onAccess f).host = s.host := rfl
@[simp] theorem onAccess_supply (s : State) (f : AccessUnit → AccessUnit) : (s.onAccess f).supply = s.supply := rfl
@[simp] theorem onAccess_pending (s : State) (f : AccessUnit → AccessUnit) : (s.onAccess f).pending = s.pending := rfl

@[simp] theorem onNotices_field (s : State) (f : NoticeQueue → NoticeQueue) : (s.onNotices f).field = s.field := rfl
@[simp] theorem onNotices_track (s : State) (f : NoticeQueue → NoticeQueue) : (s.onNotices f).track = s.track := rfl
@[simp] theorem onNotices_verdict (s : State) (f : NoticeQueue → NoticeQueue) : (s.onNotices f).verdict = s.verdict := rfl
@[simp] theorem onNotices_line (s : State) (f : NoticeQueue → NoticeQueue) : (s.onNotices f).line = s.line := rfl
@[simp] theorem onNotices_access (s : State) (f : NoticeQueue → NoticeQueue) : (s.onNotices f).access = s.access := rfl
@[simp] theorem onNotices_notices (s : State) (f : NoticeQueue → NoticeQueue) : (s.onNotices f).notices = f s.notices := rfl
@[simp] theorem onNotices_lanes (s : State) (f : NoticeQueue → NoticeQueue) : (s.onNotices f).lanes = s.lanes := rfl
@[simp] theorem onNotices_sounder (s : State) (f : NoticeQueue → NoticeQueue) : (s.onNotices f).sounder = s.sounder := rfl
@[simp] theorem onNotices_beams (s : State) (f : NoticeQueue → NoticeQueue) : (s.onNotices f).beams = s.beams := rfl
@[simp] theorem onNotices_host (s : State) (f : NoticeQueue → NoticeQueue) : (s.onNotices f).host = s.host := rfl
@[simp] theorem onNotices_supply (s : State) (f : NoticeQueue → NoticeQueue) : (s.onNotices f).supply = s.supply := rfl
@[simp] theorem onNotices_pending (s : State) (f : NoticeQueue → NoticeQueue) : (s.onNotices f).pending = s.pending := rfl

@[simp] theorem onLanes_field (s : State) (f : LaneUnit → LaneUnit) : (s.onLanes f).field = s.field := rfl
@[simp] theorem onLanes_track (s : State) (f : LaneUnit → LaneUnit) : (s.onLanes f).track = s.track := rfl
@[simp] theorem onLanes_verdict (s : State) (f : LaneUnit → LaneUnit) : (s.onLanes f).verdict = s.verdict := rfl
@[simp] theorem onLanes_line (s : State) (f : LaneUnit → LaneUnit) : (s.onLanes f).line = s.line := rfl
@[simp] theorem onLanes_access (s : State) (f : LaneUnit → LaneUnit) : (s.onLanes f).access = s.access := rfl
@[simp] theorem onLanes_notices (s : State) (f : LaneUnit → LaneUnit) : (s.onLanes f).notices = s.notices := rfl
@[simp] theorem onLanes_lanes (s : State) (f : LaneUnit → LaneUnit) : (s.onLanes f).lanes = f s.lanes := rfl
@[simp] theorem onLanes_sounder (s : State) (f : LaneUnit → LaneUnit) : (s.onLanes f).sounder = s.sounder := rfl
@[simp] theorem onLanes_beams (s : State) (f : LaneUnit → LaneUnit) : (s.onLanes f).beams = s.beams := rfl
@[simp] theorem onLanes_host (s : State) (f : LaneUnit → LaneUnit) : (s.onLanes f).host = s.host := rfl
@[simp] theorem onLanes_supply (s : State) (f : LaneUnit → LaneUnit) : (s.onLanes f).supply = s.supply := rfl
@[simp] theorem onLanes_pending (s : State) (f : LaneUnit → LaneUnit) : (s.onLanes f).pending = s.pending := rfl

@[simp] theorem onSounder_field (s : State) (f : Sounder → Sounder) : (s.onSounder f).field = s.field := rfl
@[simp] theorem onSounder_track (s : State) (f : Sounder → Sounder) : (s.onSounder f).track = s.track := rfl
@[simp] theorem onSounder_verdict (s : State) (f : Sounder → Sounder) : (s.onSounder f).verdict = s.verdict := rfl
@[simp] theorem onSounder_line (s : State) (f : Sounder → Sounder) : (s.onSounder f).line = s.line := rfl
@[simp] theorem onSounder_access (s : State) (f : Sounder → Sounder) : (s.onSounder f).access = s.access := rfl
@[simp] theorem onSounder_notices (s : State) (f : Sounder → Sounder) : (s.onSounder f).notices = s.notices := rfl
@[simp] theorem onSounder_lanes (s : State) (f : Sounder → Sounder) : (s.onSounder f).lanes = s.lanes := rfl
@[simp] theorem onSounder_sounder (s : State) (f : Sounder → Sounder) : (s.onSounder f).sounder = f s.sounder := rfl
@[simp] theorem onSounder_beams (s : State) (f : Sounder → Sounder) : (s.onSounder f).beams = s.beams := rfl
@[simp] theorem onSounder_host (s : State) (f : Sounder → Sounder) : (s.onSounder f).host = s.host := rfl
@[simp] theorem onSounder_supply (s : State) (f : Sounder → Sounder) : (s.onSounder f).supply = s.supply := rfl
@[simp] theorem onSounder_pending (s : State) (f : Sounder → Sounder) : (s.onSounder f).pending = s.pending := rfl

@[simp] theorem onBeams_field (s : State) (f : BeamUnit → BeamUnit) : (s.onBeams f).field = s.field := rfl
@[simp] theorem onBeams_track (s : State) (f : BeamUnit → BeamUnit) : (s.onBeams f).track = s.track := rfl
@[simp] theorem onBeams_verdict (s : State) (f : BeamUnit → BeamUnit) : (s.onBeams f).verdict = s.verdict := rfl
@[simp] theorem onBeams_line (s : State) (f : BeamUnit → BeamUnit) : (s.onBeams f).line = s.line := rfl
@[simp] theorem onBeams_access (s : State) (f : BeamUnit → BeamUnit) : (s.onBeams f).access = s.access := rfl
@[simp] theorem onBeams_notices (s : State) (f : BeamUnit → BeamUnit) : (s.onBeams f).notices = s.notices := rfl
@[simp] theorem onBeams_lanes (s : State) (f : BeamUnit → BeamUnit) : (s.onBeams f).lanes = s.lanes := rfl
@[simp] theorem onBeams_sounder (s : State) (f : BeamUnit → BeamUnit) : (s.onBeams f).sounder = s.sounder := rfl
@[simp] theorem onBeams_beams (s : State) (f : BeamUnit → BeamUnit) : (s.onBeams f).beams = f s.beams := rfl
@[simp] theorem onBeams_host (s : State) (f : BeamUnit → BeamUnit) : (s.onBeams f).host = s.host := rfl
@[simp] theorem onBeams_supply (s : State) (f : BeamUnit → BeamUnit) : (s.onBeams f).supply = s.supply := rfl
@[simp] theorem onBeams_pending (s : State) (f : BeamUnit → BeamUnit) : (s.onBeams f).pending = s.pending := rfl

@[simp] theorem onHost_field (s : State) (f : HostPort → HostPort) : (s.onHost f).field = s.field := rfl
@[simp] theorem onHost_track (s : State) (f : HostPort → HostPort) : (s.onHost f).track = s.track := rfl
@[simp] theorem onHost_verdict (s : State) (f : HostPort → HostPort) : (s.onHost f).verdict = s.verdict := rfl
@[simp] theorem onHost_line (s : State) (f : HostPort → HostPort) : (s.onHost f).line = s.line := rfl
@[simp] theorem onHost_access (s : State) (f : HostPort → HostPort) : (s.onHost f).access = s.access := rfl
@[simp] theorem onHost_notices (s : State) (f : HostPort → HostPort) : (s.onHost f).notices = s.notices := rfl
@[simp] theorem onHost_lanes (s : State) (f : HostPort → HostPort) : (s.onHost f).lanes = s.lanes := rfl
@[simp] theorem onHost_sounder (s : State) (f : HostPort → HostPort) : (s.onHost f).sounder = s.sounder := rfl
@[simp] theorem onHost_beams (s : State) (f : HostPort → HostPort) : (s.onHost f).beams = s.beams := rfl
@[simp] theorem onHost_host (s : State) (f : HostPort → HostPort) : (s.onHost f).host = f s.host := rfl
@[simp] theorem onHost_supply (s : State) (f : HostPort → HostPort) : (s.onHost f).supply = s.supply := rfl
@[simp] theorem onHost_pending (s : State) (f : HostPort → HostPort) : (s.onHost f).pending = s.pending := rfl

@[simp] theorem onSupply_field (s : State) (f : SupplyUnit → SupplyUnit) : (s.onSupply f).field = s.field := rfl
@[simp] theorem onSupply_track (s : State) (f : SupplyUnit → SupplyUnit) : (s.onSupply f).track = s.track := rfl
@[simp] theorem onSupply_verdict (s : State) (f : SupplyUnit → SupplyUnit) : (s.onSupply f).verdict = s.verdict := rfl
@[simp] theorem onSupply_line (s : State) (f : SupplyUnit → SupplyUnit) : (s.onSupply f).line = s.line := rfl
@[simp] theorem onSupply_access (s : State) (f : SupplyUnit → SupplyUnit) : (s.onSupply f).access = s.access := rfl
@[simp] theorem onSupply_notices (s : State) (f : SupplyUnit → SupplyUnit) : (s.onSupply f).notices = s.notices := rfl
@[simp] theorem onSupply_lanes (s : State) (f : SupplyUnit → SupplyUnit) : (s.onSupply f).lanes = s.lanes := rfl
@[simp] theorem onSupply_sounder (s : State) (f : SupplyUnit → SupplyUnit) : (s.onSupply f).sounder = s.sounder := rfl
@[simp] theorem onSupply_beams (s : State) (f : SupplyUnit → SupplyUnit) : (s.onSupply f).beams = s.beams := rfl
@[simp] theorem onSupply_host (s : State) (f : SupplyUnit → SupplyUnit) : (s.onSupply f).host = s.host := rfl
@[simp] theorem onSupply_supply (s : State) (f : SupplyUnit → SupplyUnit) : (s.onSupply f).supply = f s.supply := rfl
@[simp] theorem onSupply_pending (s : State) (f : SupplyUnit → SupplyUnit) : (s.onSupply f).pending = s.pending := rfl

@[simp] theorem withPending_field (s : State) (queue : List Instr) : (s.withPending queue).field = s.field := rfl
@[simp] theorem withPending_track (s : State) (queue : List Instr) : (s.withPending queue).track = s.track := rfl
@[simp] theorem withPending_verdict (s : State) (queue : List Instr) : (s.withPending queue).verdict = s.verdict := rfl
@[simp] theorem withPending_line (s : State) (queue : List Instr) : (s.withPending queue).line = s.line := rfl
@[simp] theorem withPending_access (s : State) (queue : List Instr) : (s.withPending queue).access = s.access := rfl
@[simp] theorem withPending_notices (s : State) (queue : List Instr) : (s.withPending queue).notices = s.notices := rfl
@[simp] theorem withPending_lanes (s : State) (queue : List Instr) : (s.withPending queue).lanes = s.lanes := rfl
@[simp] theorem withPending_sounder (s : State) (queue : List Instr) : (s.withPending queue).sounder = s.sounder := rfl
@[simp] theorem withPending_beams (s : State) (queue : List Instr) : (s.withPending queue).beams = s.beams := rfl
@[simp] theorem withPending_host (s : State) (queue : List Instr) : (s.withPending queue).host = s.host := rfl
@[simp] theorem withPending_supply (s : State) (queue : List Instr) : (s.withPending queue).supply = s.supply := rfl
@[simp] theorem withPending_pending (s : State) (queue : List Instr) : (s.withPending queue).pending = queue := rfl

end Sys2Proof.Machine
end

