-- ==== Sys2Proof/Laws/Frames.lean ====
section
/-! SUPPORT. For each shared operation, the blocks it leaves as they are: one lemma an operation, which simp takes block by block.
The block that a lemma does not name is one the operation can change. -/

namespace Sys2Proof.Machine

/-- What every step of a fold keeps, the fold keeps. -/
theorem foldl_keeps {α β : Type} (proj : State → β) (f : State → α → State) (kept : ∀ s a, proj (f s a) = proj s)
    (l : List α) (s : State) : proj (l.foldl f s) = proj s := by
  induction l generalizing s with
  | nil => rfl
  | cons a l ih => rw [List.foldl_cons, ih, kept]

/-! ## Counts, report ring, sounder, lanes -/

@[simp] theorem onErrors_frame (f : ErrorCounts → ErrorCounts) (s : State) :
    (onErrors f s).field = s.field ∧ (onErrors f s).track = s.track ∧ (onErrors f s).verdict = s.verdict ∧
      (onErrors f s).line = s.line ∧ (onErrors f s).access = s.access ∧ (onErrors f s).notices = s.notices ∧
      (onErrors f s).lanes = s.lanes ∧ (onErrors f s).sounder = s.sounder ∧ (onErrors f s).beams = s.beams ∧
      (onErrors f s).supply = s.supply ∧ (onErrors f s).pending = s.pending := by
  simp [onErrors]

@[simp] theorem startDelivery_frame (s : State) :
    (startDelivery s).field = s.field ∧ (startDelivery s).track = s.track ∧ (startDelivery s).verdict = s.verdict ∧
      (startDelivery s).line = s.line ∧ (startDelivery s).access = s.access ∧ (startDelivery s).notices = s.notices ∧
      (startDelivery s).lanes = s.lanes ∧ (startDelivery s).sounder = s.sounder ∧ (startDelivery s).beams = s.beams ∧
      (startDelivery s).supply = s.supply ∧ (startDelivery s).pending = s.pending := by
  simp only [startDelivery]
  (repeat' split) <;> simp

@[simp] theorem makeRecord_frame (body : ReportBody) (s : State) :
    (makeRecord body s).field = s.field ∧ (makeRecord body s).track = s.track ∧
      (makeRecord body s).verdict = s.verdict ∧ (makeRecord body s).line = s.line ∧
      (makeRecord body s).access = s.access ∧ (makeRecord body s).notices = s.notices ∧
      (makeRecord body s).lanes = s.lanes ∧ (makeRecord body s).sounder = s.sounder ∧
      (makeRecord body s).beams = s.beams ∧ (makeRecord body s).supply = s.supply ∧
      (makeRecord body s).pending = s.pending := by
  simp only [makeRecord]
  (repeat' split) <;> simp

@[simp] theorem lineError_frame (s : State) :
    (lineError s).field = s.field ∧ (lineError s).track = s.track ∧ (lineError s).verdict = s.verdict ∧
      (lineError s).line = s.line ∧ (lineError s).access = s.access ∧ (lineError s).notices = s.notices ∧
      (lineError s).lanes = s.lanes ∧ (lineError s).sounder = s.sounder ∧ (lineError s).beams = s.beams ∧
      (lineError s).supply = s.supply ∧ (lineError s).pending = s.pending := by
  simp [lineError]

@[simp] theorem noticeCrcError_frame (s : State) :
    (noticeCrcError s).field = s.field ∧ (noticeCrcError s).track = s.track ∧
      (noticeCrcError s).verdict = s.verdict ∧ (noticeCrcError s).line = s.line ∧
      (noticeCrcError s).access = s.access ∧ (noticeCrcError s).notices = s.notices ∧
      (noticeCrcError s).lanes = s.lanes ∧ (noticeCrcError s).sounder = s.sounder ∧
      (noticeCrcError s).beams = s.beams ∧ (noticeCrcError s).supply = s.supply ∧
      (noticeCrcError s).pending = s.pending := by
  simp [noticeCrcError]

@[simp] theorem evictionCounted_frame (s : State) :
    (evictionCounted s).field = s.field ∧ (evictionCounted s).track = s.track ∧
      (evictionCounted s).verdict = s.verdict ∧ (evictionCounted s).line = s.line ∧
      (evictionCounted s).access = s.access ∧ (evictionCounted s).notices = s.notices ∧
      (evictionCounted s).lanes = s.lanes ∧ (evictionCounted s).sounder = s.sounder ∧
      (evictionCounted s).beams = s.beams ∧ (evictionCounted s).supply = s.supply ∧
      (evictionCounted s).pending = s.pending := by
  simp [evictionCounted]

@[simp] theorem outboxDropped_frame (s : State) :
    (outboxDropped s).field = s.field ∧ (outboxDropped s).track = s.track ∧ (outboxDropped s).verdict = s.verdict ∧
      (outboxDropped s).line = s.line ∧ (outboxDropped s).access = s.access ∧ (outboxDropped s).notices = s.notices ∧
      (outboxDropped s).lanes = s.lanes ∧ (outboxDropped s).sounder = s.sounder ∧ (outboxDropped s).beams = s.beams ∧
      (outboxDropped s).supply = s.supply ∧ (outboxDropped s).pending = s.pending := by
  simp [outboxDropped]

@[simp] theorem hostFrameCounted_frame (s : State) :
    (hostFrameCounted s).field = s.field ∧ (hostFrameCounted s).track = s.track ∧
      (hostFrameCounted s).verdict = s.verdict ∧ (hostFrameCounted s).line = s.line ∧
      (hostFrameCounted s).access = s.access ∧ (hostFrameCounted s).notices = s.notices ∧
      (hostFrameCounted s).lanes = s.lanes ∧ (hostFrameCounted s).sounder = s.sounder ∧
      (hostFrameCounted s).beams = s.beams ∧ (hostFrameCounted s).supply = s.supply ∧
      (hostFrameCounted s).pending = s.pending := by
  simp [hostFrameCounted]

@[simp] theorem onCounts_frame (f : LaneCounts → LaneCounts) (s : State) :
    (onCounts f s).field = s.field ∧ (onCounts f s).track = s.track ∧ (onCounts f s).verdict = s.verdict ∧
      (onCounts f s).line = s.line ∧ (onCounts f s).access = s.access ∧ (onCounts f s).notices = s.notices ∧
      (onCounts f s).lanes = s.lanes ∧ (onCounts f s).sounder = s.sounder ∧ (onCounts f s).host = s.host ∧
      (onCounts f s).supply = s.supply ∧ (onCounts f s).pending = s.pending := by
  simp only [onCounts]
  (repeat' split) <;> simp

@[simp] theorem soundStart_frame (s : State) :
    (soundStart s).field = s.field ∧ (soundStart s).track = s.track ∧ (soundStart s).verdict = s.verdict ∧
      (soundStart s).line = s.line ∧ (soundStart s).access = s.access ∧ (soundStart s).notices = s.notices ∧
      (soundStart s).lanes = s.lanes ∧ (soundStart s).beams = s.beams ∧ (soundStart s).host = s.host ∧
      (soundStart s).supply = s.supply ∧ (soundStart s).pending = s.pending := by
  simp [soundStart]

@[simp] theorem soundStop_frame (s : State) :
    (soundStop s).field = s.field ∧ (soundStop s).track = s.track ∧ (soundStop s).verdict = s.verdict ∧
      (soundStop s).line = s.line ∧ (soundStop s).access = s.access ∧ (soundStop s).notices = s.notices ∧
      (soundStop s).lanes = s.lanes ∧ (soundStop s).beams = s.beams ∧ (soundStop s).host = s.host ∧
      (soundStop s).supply = s.supply ∧ (soundStop s).pending = s.pending := by
  simp [soundStop]

@[simp] theorem putLane_frame (l : LaneSide) (st : LaneState) (s : State) :
    (putLane l st s).field = s.field ∧ (putLane l st s).track = s.track ∧ (putLane l st s).verdict = s.verdict ∧
      (putLane l st s).line = s.line ∧ (putLane l st s).access = s.access ∧ (putLane l st s).notices = s.notices ∧
      (putLane l st s).sounder = s.sounder ∧ (putLane l st s).beams = s.beams ∧ (putLane l st s).host = s.host ∧
      (putLane l st s).supply = s.supply ∧ (putLane l st s).pending = s.pending := by
  simp only [putLane]
  (repeat' split) <;> simp

@[simp] theorem setLane_frame (l : LaneSide) (st : LaneState) (s : State) :
    (setLane l st s).field = s.field ∧ (setLane l st s).track = s.track ∧ (setLane l st s).verdict = s.verdict ∧
      (setLane l st s).line = s.line ∧ (setLane l st s).access = s.access ∧ (setLane l st s).notices = s.notices ∧
      (setLane l st s).beams = s.beams ∧ (setLane l st s).host = s.host ∧ (setLane l st s).supply = s.supply ∧
      (setLane l st s).pending = s.pending := by
  simp only [setLane]
  (repeat' split) <;> simp

@[simp] theorem rearm_frame (l : LaneSide) (s : State) :
    (rearm l s).field = s.field ∧ (rearm l s).track = s.track ∧ (rearm l s).verdict = s.verdict ∧
      (rearm l s).line = s.line ∧ (rearm l s).access = s.access ∧ (rearm l s).notices = s.notices ∧
      (rearm l s).beams = s.beams ∧ (rearm l s).host = s.host ∧ (rearm l s).supply = s.supply ∧
      (rearm l s).pending = s.pending := by
  simp only [rearm]
  (repeat' split) <;> simp

@[simp] theorem rearmBoth_frame (s : State) :
    (rearmBoth s).field = s.field ∧ (rearmBoth s).track = s.track ∧ (rearmBoth s).verdict = s.verdict ∧
      (rearmBoth s).line = s.line ∧ (rearmBoth s).access = s.access ∧ (rearmBoth s).notices = s.notices ∧
      (rearmBoth s).beams = s.beams ∧ (rearmBoth s).host = s.host ∧ (rearmBoth s).supply = s.supply ∧
      (rearmBoth s).pending = s.pending := by
  simp [rearmBoth]

@[simp] theorem enterSounding_frame (l : LaneSide) (cause : LaneCause) (s : State) :
    (enterSounding l cause s).field = s.field ∧ (enterSounding l cause s).track = s.track ∧
      (enterSounding l cause s).verdict = s.verdict ∧ (enterSounding l cause s).line = s.line ∧
      (enterSounding l cause s).access = s.access ∧ (enterSounding l cause s).notices = s.notices ∧
      (enterSounding l cause s).beams = s.beams ∧ (enterSounding l cause s).supply = s.supply ∧
      (enterSounding l cause s).pending = s.pending := by
  simp [enterSounding]

@[simp] theorem hushLane_frame (l : LaneSide) (cause : LaneCause) (s : State) :
    (hushLane l cause s).field = s.field ∧ (hushLane l cause s).track = s.track ∧
      (hushLane l cause s).verdict = s.verdict ∧ (hushLane l cause s).line = s.line ∧
      (hushLane l cause s).access = s.access ∧ (hushLane l cause s).notices = s.notices ∧
      (hushLane l cause s).beams = s.beams ∧ (hushLane l cause s).supply = s.supply ∧
      (hushLane l cause s).pending = s.pending := by
  simp only [hushLane]
  (repeat' split) <;> simp

@[simp] theorem hushBoth_frame (cause : LaneCause) (s : State) :
    (hushBoth cause s).field = s.field ∧ (hushBoth cause s).track = s.track ∧
      (hushBoth cause s).verdict = s.verdict ∧ (hushBoth cause s).line = s.line ∧
      (hushBoth cause s).access = s.access ∧ (hushBoth cause s).notices = s.notices ∧
      (hushBoth cause s).beams = s.beams ∧ (hushBoth cause s).supply = s.supply ∧
      (hushBoth cause s).pending = s.pending := by
  simp [hushBoth]

@[simp] theorem soundTick_frame (l : LaneSide) (s : State) :
    (soundTick l s).field = s.field ∧ (soundTick l s).track = s.track ∧ (soundTick l s).verdict = s.verdict ∧
      (soundTick l s).line = s.line ∧ (soundTick l s).access = s.access ∧ (soundTick l s).notices = s.notices ∧
      (soundTick l s).beams = s.beams ∧ (soundTick l s).supply = s.supply ∧ (soundTick l s).pending = s.pending := by
  simp only [soundTick]
  (repeat' split) <;> simp

@[simp] theorem armLanes_frame (s : State) :
    (armLanes s).field = s.field ∧ (armLanes s).track = s.track ∧ (armLanes s).verdict = s.verdict ∧
      (armLanes s).line = s.line ∧ (armLanes s).access = s.access ∧ (armLanes s).notices = s.notices ∧
      (armLanes s).beams = s.beams ∧ (armLanes s).host = s.host ∧ (armLanes s).supply = s.supply ∧
      (armLanes s).pending = s.pending := by
  simp [armLanes]

/-! ## Cadence, dormant timer, peer codes -/

@[simp] theorem briskEntry_frame (s : State) :
    (briskEntry s).field = s.field ∧ (briskEntry s).track = s.track ∧ (briskEntry s).verdict = s.verdict ∧
      (briskEntry s).line = s.line ∧ (briskEntry s).notices = s.notices ∧ (briskEntry s).lanes = s.lanes ∧
      (briskEntry s).sounder = s.sounder ∧ (briskEntry s).beams = s.beams ∧ (briskEntry s).host = s.host ∧
      (briskEntry s).supply = s.supply ∧ (briskEntry s).pending = s.pending := by
  simp [briskEntry]

@[simp] theorem stirAccess_frame (s : State) :
    (stirAccess s).field = s.field ∧ (stirAccess s).track = s.track ∧ (stirAccess s).verdict = s.verdict ∧
      (stirAccess s).line = s.line ∧ (stirAccess s).notices = s.notices ∧ (stirAccess s).lanes = s.lanes ∧
      (stirAccess s).sounder = s.sounder ∧ (stirAccess s).beams = s.beams ∧ (stirAccess s).host = s.host ∧
      (stirAccess s).supply = s.supply ∧ (stirAccess s).pending = s.pending := by
  simp [stirAccess]

@[simp] theorem dormantTimerZero_frame (s : State) :
    (dormantTimerZero s).field = s.field ∧ (dormantTimerZero s).track = s.track ∧
      (dormantTimerZero s).verdict = s.verdict ∧ (dormantTimerZero s).line = s.line ∧
      (dormantTimerZero s).access = s.access ∧ (dormantTimerZero s).notices = s.notices ∧
      (dormantTimerZero s).lanes = s.lanes ∧ (dormantTimerZero s).sounder = s.sounder ∧
      (dormantTimerZero s).beams = s.beams ∧ (dormantTimerZero s).host = s.host ∧
      (dormantTimerZero s).pending = s.pending := by
  simp [dormantTimerZero]

@[simp] theorem putPeer_frame (l : LaneSide) (r : PeerRecord) (s : State) :
    (putPeer l r s).field = s.field ∧ (putPeer l r s).track = s.track ∧ (putPeer l r s).verdict = s.verdict ∧
      (putPeer l r s).access = s.access ∧ (putPeer l r s).notices = s.notices ∧ (putPeer l r s).lanes = s.lanes ∧
      (putPeer l r s).sounder = s.sounder ∧ (putPeer l r s).beams = s.beams ∧ (putPeer l r s).host = s.host ∧
      (putPeer l r s).supply = s.supply ∧ (putPeer l r s).pending = s.pending := by
  simp only [putPeer]
  (repeat' split) <;> simp

@[simp] theorem takePeerCode_frame (l : LaneSide) (old new : PeerCode) (s : State) :
    (takePeerCode l old new s).field = s.field ∧ (takePeerCode l old new s).track = s.track ∧
      (takePeerCode l old new s).verdict = s.verdict ∧ (takePeerCode l old new s).line = s.line ∧
      (takePeerCode l old new s).access = s.access ∧ (takePeerCode l old new s).notices = s.notices ∧
      (takePeerCode l old new s).beams = s.beams ∧ (takePeerCode l old new s).supply = s.supply ∧
      (takePeerCode l old new s).pending = s.pending := by
  simp only [takePeerCode]
  (repeat' split) <;> simp

@[simp] theorem observe_frame (l : LaneSide) (seen : PeerCode) (s : State) :
    (observe l seen s).field = s.field ∧ (observe l seen s).track = s.track ∧
      (observe l seen s).verdict = s.verdict ∧ (observe l seen s).access = s.access ∧
      (observe l seen s).notices = s.notices ∧ (observe l seen s).beams = s.beams ∧
      (observe l seen s).pending = s.pending := by
  simp only [observe]; (repeat' split) <;> simp

@[simp] theorem clearPeer_frame (l : LaneSide) (s : State) :
    (clearPeer l s).field = s.field ∧ (clearPeer l s).track = s.track ∧ (clearPeer l s).verdict = s.verdict ∧
      (clearPeer l s).access = s.access ∧ (clearPeer l s).notices = s.notices ∧ (clearPeer l s).beams = s.beams ∧
      (clearPeer l s).supply = s.supply ∧ (clearPeer l s).pending = s.pending := by
  simp only [clearPeer]; split <;> simp

@[simp] theorem clearPeers_frame (s : State) :
    (clearPeers s).field = s.field ∧ (clearPeers s).track = s.track ∧ (clearPeers s).verdict = s.verdict ∧
      (clearPeers s).access = s.access ∧ (clearPeers s).notices = s.notices ∧ (clearPeers s).beams = s.beams ∧
      (clearPeers s).supply = s.supply ∧ (clearPeers s).pending = s.pending := by
  simp [clearPeers]

/-! ## Notices and excuses -/

@[simp] theorem queueNotice_frame (body : NoticeBody) (s : State) :
    (queueNotice body s).field = s.field ∧ (queueNotice body s).track = s.track ∧
      (queueNotice body s).verdict = s.verdict ∧ (queueNotice body s).line = s.line ∧
      (queueNotice body s).access = s.access ∧ (queueNotice body s).lanes = s.lanes ∧
      (queueNotice body s).sounder = s.sounder ∧ (queueNotice body s).beams = s.beams ∧
      (queueNotice body s).supply = s.supply ∧ (queueNotice body s).pending = s.pending := by
  simp only [queueNotice]; (repeat' split) <;> simp

@[simp] theorem dropStale_frame (s : State) :
    (dropStale s).field = s.field ∧ (dropStale s).track = s.track ∧ (dropStale s).verdict = s.verdict ∧
      (dropStale s).line = s.line ∧ (dropStale s).access = s.access ∧ (dropStale s).lanes = s.lanes ∧
      (dropStale s).sounder = s.sounder ∧ (dropStale s).beams = s.beams ∧ (dropStale s).host = s.host ∧
      (dropStale s).supply = s.supply ∧ (dropStale s).pending = s.pending := by
  simp [dropStale]

@[simp] theorem removeExcuse_frame (item : ItemCode) (s : State) :
    (removeExcuse item s).field = s.field ∧ (removeExcuse item s).track = s.track ∧
      (removeExcuse item s).line = s.line ∧ (removeExcuse item s).access = s.access ∧
      (removeExcuse item s).notices = s.notices ∧ (removeExcuse item s).lanes = s.lanes ∧
      (removeExcuse item s).sounder = s.sounder ∧ (removeExcuse item s).beams = s.beams ∧
      (removeExcuse item s).host = s.host ∧ (removeExcuse item s).supply = s.supply ∧
      (removeExcuse item s).pending = s.pending := by
  simp [removeExcuse]

@[simp] theorem addExcuse_frame (item : ItemCode) (life : Nat) (s : State) :
    (addExcuse item life s).field = s.field ∧ (addExcuse item life s).track = s.track ∧
      (addExcuse item life s).line = s.line ∧ (addExcuse item life s).access = s.access ∧
      (addExcuse item life s).notices = s.notices ∧ (addExcuse item life s).lanes = s.lanes ∧
      (addExcuse item life s).sounder = s.sounder ∧ (addExcuse item life s).beams = s.beams ∧
      (addExcuse item life s).host = s.host ∧ (addExcuse item life s).supply = s.supply ∧
      (addExcuse item life s).pending = s.pending := by
  simp [addExcuse]

@[simp] theorem applyExcuse_frame (item : ItemCode) (life : Nat) (s : State) :
    (applyExcuse item life s).field = s.field ∧ (applyExcuse item life s).track = s.track ∧
      (applyExcuse item life s).line = s.line ∧ (applyExcuse item life s).access = s.access ∧
      (applyExcuse item life s).notices = s.notices ∧ (applyExcuse item life s).lanes = s.lanes ∧
      (applyExcuse item life s).sounder = s.sounder ∧ (applyExcuse item life s).beams = s.beams ∧
      (applyExcuse item life s).host = s.host ∧ (applyExcuse item life s).supply = s.supply ∧
      (applyExcuse item life s).pending = s.pending := by
  simp only [applyExcuse]
  (repeat' split) <;> simp

@[simp] theorem minuteTurn_frame (s : State) :
    (minuteTurn s).field = s.field ∧ (minuteTurn s).track = s.track ∧ (minuteTurn s).line = s.line ∧
      (minuteTurn s).access = s.access ∧ (minuteTurn s).notices = s.notices ∧ (minuteTurn s).lanes = s.lanes ∧
      (minuteTurn s).sounder = s.sounder ∧ (minuteTurn s).beams = s.beams ∧ (minuteTurn s).host = s.host ∧
      (minuteTurn s).supply = s.supply ∧ (minuteTurn s).pending = s.pending := by
  simp [minuteTurn]

/-! ## Tracks and verdicts -/

@[simp] theorem updTrack_frame (item : ItemCode) (f : Track → Track) (s : State) :
    (updTrack item f s).field = s.field ∧ (updTrack item f s).verdict = s.verdict ∧
      (updTrack item f s).line = s.line ∧ (updTrack item f s).access = s.access ∧
      (updTrack item f s).notices = s.notices ∧ (updTrack item f s).lanes = s.lanes ∧
      (updTrack item f s).sounder = s.sounder ∧ (updTrack item f s).beams = s.beams ∧
      (updTrack item f s).host = s.host ∧ (updTrack item f s).supply = s.supply ∧
      (updTrack item f s).pending = s.pending := by
  simp [updTrack]

@[simp] theorem countVerdict_frame (o : Outcome) (side : Side) (s : State) :
    (countVerdict o side s).field = s.field ∧ (countVerdict o side s).track = s.track ∧
      (countVerdict o side s).verdict = s.verdict ∧ (countVerdict o side s).line = s.line ∧
      (countVerdict o side s).access = s.access ∧ (countVerdict o side s).notices = s.notices ∧
      (countVerdict o side s).lanes = s.lanes ∧ (countVerdict o side s).sounder = s.sounder ∧
      (countVerdict o side s).host = s.host ∧ (countVerdict o side s).supply = s.supply ∧
      (countVerdict o side s).pending = s.pending := by
  simp only [countVerdict]
  (repeat' split) <;> simp

@[simp] theorem ownAlarm_frame (l : LaneSide) (s : State) :
    (ownAlarm l s).1.field = s.field ∧ (ownAlarm l s).1.track = s.track ∧ (ownAlarm l s).1.verdict = s.verdict ∧
      (ownAlarm l s).1.line = s.line ∧ (ownAlarm l s).1.access = s.access ∧ (ownAlarm l s).1.notices = s.notices ∧
      (ownAlarm l s).1.beams = s.beams ∧ (ownAlarm l s).1.supply = s.supply ∧ (ownAlarm l s).1.pending = s.pending := by
  simp only [ownAlarm]
  (repeat' split) <;> simp

@[simp] theorem ownAlarms_frame (lanes : List LaneSide) (s : State) :
    (ownAlarms lanes s).1.field = s.field ∧ (ownAlarms lanes s).1.track = s.track ∧
      (ownAlarms lanes s).1.verdict = s.verdict ∧ (ownAlarms lanes s).1.line = s.line ∧
      (ownAlarms lanes s).1.access = s.access ∧ (ownAlarms lanes s).1.notices = s.notices ∧
      (ownAlarms lanes s).1.beams = s.beams ∧ (ownAlarms lanes s).1.supply = s.supply ∧
      (ownAlarms lanes s).1.pending = s.pending := by
  induction lanes generalizing s with
  | nil => simp [ownAlarms]
  | cons l ls ih => simp [ownAlarms, ih]

@[simp] theorem verdictEffects_frame (o : Outcome) (item : ItemCode) (side : Side) (s : State) :
    (verdictEffects o item side s).1.field = s.field ∧ (verdictEffects o item side s).1.verdict = s.verdict ∧
      (verdictEffects o item side s).1.line = s.line ∧ (verdictEffects o item side s).1.access = s.access ∧
      (verdictEffects o item side s).1.supply = s.supply ∧ (verdictEffects o item side s).1.pending = s.pending := by
  cases o <;> simp only [verdictEffects] <;> (try split) <;> simp

@[simp] theorem giveVerdict_frame (item : ItemCode) (direction : Direction) (s : State) :
    (giveVerdict item direction s).field = s.field ∧ (giveVerdict item direction s).verdict = s.verdict ∧
      (giveVerdict item direction s).line = s.line ∧ (giveVerdict item direction s).access = s.access ∧
      (giveVerdict item direction s).supply = s.supply ∧ (giveVerdict item direction s).pending = s.pending := by
  simp only [giveVerdict]; (repeat' split) <;> simp

@[simp] theorem countTagEntry_frame (s : State) :
    (countTagEntry s).field = s.field ∧ (countTagEntry s).track = s.track ∧ (countTagEntry s).verdict = s.verdict ∧
      (countTagEntry s).line = s.line ∧ (countTagEntry s).access = s.access ∧ (countTagEntry s).notices = s.notices ∧
      (countTagEntry s).lanes = s.lanes ∧ (countTagEntry s).sounder = s.sounder ∧ (countTagEntry s).host = s.host ∧
      (countTagEntry s).supply = s.supply ∧ (countTagEntry s).pending = s.pending := by
  simp [countTagEntry]

@[simp] theorem evaluate_settleJudgement_frame (before : Track) (j : Judgement) (s : State) :
    (evaluate.settleJudgement before j s).field = s.field ∧
      (evaluate.settleJudgement before j s).verdict = s.verdict ∧
      (evaluate.settleJudgement before j s).line = s.line ∧ (evaluate.settleJudgement before j s).access = s.access ∧
      (evaluate.settleJudgement before j s).supply = s.supply ∧
      (evaluate.settleJudgement before j s).pending = s.pending := by
  simp only [evaluate.settleJudgement]; (repeat' split) <;> simp

@[simp] theorem evaluate_frame (item : ItemCode) (s : State) :
    (evaluate item s).field = s.field ∧ (evaluate item s).verdict = s.verdict ∧ (evaluate item s).line = s.line ∧
      (evaluate item s).access = s.access ∧ (evaluate item s).supply = s.supply ∧
      (evaluate item s).pending = s.pending := by
  simp only [evaluate]
  (repeat' split) <;> simp

@[simp] theorem reportPassage_frame (item : ItemCode) (s : State) :
    (reportPassage item s).field = s.field ∧ (reportPassage item s).track = s.track ∧
      (reportPassage item s).verdict = s.verdict ∧ (reportPassage item s).line = s.line ∧
      (reportPassage item s).access = s.access ∧ (reportPassage item s).notices = s.notices ∧
      (reportPassage item s).lanes = s.lanes ∧ (reportPassage item s).sounder = s.sounder ∧
      (reportPassage item s).beams = s.beams ∧ (reportPassage item s).supply = s.supply ∧
      (reportPassage item s).pending = s.pending := by
  simp only [reportPassage]
  (repeat' split) <;> simp

@[simp] theorem removeTrack_frame (item : ItemCode) (s : State) :
    (removeTrack item s).field = s.field ∧ (removeTrack item s).verdict = s.verdict ∧
      (removeTrack item s).line = s.line ∧ (removeTrack item s).access = s.access ∧
      (removeTrack item s).notices = s.notices ∧ (removeTrack item s).beams = s.beams ∧
      (removeTrack item s).host = s.host ∧ (removeTrack item s).supply = s.supply ∧
      (removeTrack item s).pending = s.pending := by
  simp [removeTrack]

@[simp] theorem expireTrack_frame (item : ItemCode) (s : State) :
    (expireTrack item s).field = s.field ∧ (expireTrack item s).verdict = s.verdict ∧
      (expireTrack item s).line = s.line ∧ (expireTrack item s).access = s.access ∧
      (expireTrack item s).supply = s.supply ∧ (expireTrack item s).pending = s.pending := by
  simp only [expireTrack]
  (repeat' split) <;> simp

@[simp] theorem expireTracks_frame (s : State) :
    (expireTracks s).field = s.field ∧ (expireTracks s).verdict = s.verdict ∧ (expireTracks s).line = s.line ∧
      (expireTracks s).access = s.access ∧ (expireTracks s).supply = s.supply ∧ (expireTracks s).pending = s.pending := by
  refine ⟨?_, ?_, ?_, ?_, ?_, ?_⟩ <;> exact foldl_keeps _ _ (by simp) _ _

@[simp] theorem evict_frame (s : State) :
    (evict s).field = s.field ∧ (evict s).verdict = s.verdict ∧ (evict s).line = s.line ∧
      (evict s).access = s.access ∧ (evict s).supply = s.supply ∧ (evict s).pending = s.pending := by
  simp only [evict]
  (repeat' split) <;> simp

@[simp] theorem createTrack_frame (item : ItemCode) (loan : LoanWord) (c : Coil) (v : Strength) (s : State) :
    (createTrack item loan c v s).field = s.field ∧ (createTrack item loan c v s).verdict = s.verdict ∧
      (createTrack item loan c v s).line = s.line ∧ (createTrack item loan c v s).notices = s.notices ∧
      (createTrack item loan c v s).lanes = s.lanes ∧ (createTrack item loan c v s).sounder = s.sounder ∧
      (createTrack item loan c v s).beams = s.beams ∧ (createTrack item loan c v s).host = s.host ∧
      (createTrack item loan c v s).pending = s.pending := by
  simp [createTrack]

@[simp] theorem takeRead_frame (item : ItemCode) (loan : LoanWord) (c : Coil) (v : Strength) (s : State) :
    (takeRead item loan c v s).field = s.field ∧ (takeRead item loan c v s).verdict = s.verdict ∧
      (takeRead item loan c v s).line = s.line ∧ (takeRead item loan c v s).pending = s.pending := by
  simp only [takeRead]
  (repeat' split) <;> simp

@[simp] theorem ageCache_frame (s : State) :
    (ageCache s).field = s.field ∧ (ageCache s).verdict = s.verdict ∧ (ageCache s).line = s.line ∧
      (ageCache s).access = s.access ∧ (ageCache s).notices = s.notices ∧ (ageCache s).lanes = s.lanes ∧
      (ageCache s).sounder = s.sounder ∧ (ageCache s).beams = s.beams ∧ (ageCache s).host = s.host ∧
      (ageCache s).supply = s.supply ∧ (ageCache s).pending = s.pending := by
  simp [ageCache]

@[simp] theorem takeSighting_frame (l : LaneSide) (e : Sighting) (s : State) :
    (takeSighting l e s).field = s.field ∧ (takeSighting l e s).verdict = s.verdict ∧
      (takeSighting l e s).line = s.line ∧ (takeSighting l e s).access = s.access ∧
      (takeSighting l e s).notices = s.notices ∧ (takeSighting l e s).lanes = s.lanes ∧
      (takeSighting l e s).sounder = s.sounder ∧ (takeSighting l e s).beams = s.beams ∧
      (takeSighting l e s).host = s.host ∧ (takeSighting l e s).supply = s.supply ∧
      (takeSighting l e s).pending = s.pending := by
  simp only [takeSighting]; (repeat' split) <;> simp

@[simp] theorem takeVerdictEntry_frame (e : VerdictEntry) (s : State) :
    (takeVerdictEntry e s).field = s.field ∧ (takeVerdictEntry e s).verdict = s.verdict ∧
      (takeVerdictEntry e s).line = s.line ∧ (takeVerdictEntry e s).access = s.access ∧
      (takeVerdictEntry e s).notices = s.notices ∧ (takeVerdictEntry e s).lanes = s.lanes ∧
      (takeVerdictEntry e s).sounder = s.sounder ∧ (takeVerdictEntry e s).beams = s.beams ∧
      (takeVerdictEntry e s).host = s.host ∧ (takeVerdictEntry e s).supply = s.supply ∧
      (takeVerdictEntry e s).pending = s.pending := by
  simp only [takeVerdictEntry]; (repeat' split) <;> simp

/-! ## Field windows -/

@[simp] theorem putCoil_frame (c : Coil) (st : CoilState) (s : State) :
    (putCoil c st s).track = s.track ∧ (putCoil c st s).verdict = s.verdict ∧ (putCoil c st s).line = s.line ∧
      (putCoil c st s).access = s.access ∧ (putCoil c st s).notices = s.notices ∧ (putCoil c st s).lanes = s.lanes ∧
      (putCoil c st s).sounder = s.sounder ∧ (putCoil c st s).beams = s.beams ∧ (putCoil c st s).host = s.host ∧
      (putCoil c st s).supply = s.supply ∧ (putCoil c st s).pending = s.pending := by
  simp only [putCoil]
  (repeat' split) <;> simp

@[simp] theorem driveCheck_frame (c : Coil) (sense : DriveSense) (s : State) :
    (driveCheck c sense s).1.track = s.track ∧ (driveCheck c sense s).1.verdict = s.verdict ∧
      (driveCheck c sense s).1.line = s.line ∧ (driveCheck c sense s).1.access = s.access ∧
      (driveCheck c sense s).1.notices = s.notices ∧ (driveCheck c sense s).1.lanes = s.lanes ∧
      (driveCheck c sense s).1.sounder = s.sounder ∧ (driveCheck c sense s).1.beams = s.beams ∧
      (driveCheck c sense s).1.supply = s.supply ∧ (driveCheck c sense s).1.pending = s.pending := by
  simp only [driveCheck]
  (repeat' split) <;> simp

@[simp] theorem beginSweep_frame (kind : WindowKind) (c : Coil) (s : State) :
    (beginSweep kind c s).track = s.track ∧ (beginSweep kind c s).verdict = s.verdict ∧
      (beginSweep kind c s).line = s.line ∧ (beginSweep kind c s).access = s.access ∧
      (beginSweep kind c s).notices = s.notices ∧ (beginSweep kind c s).lanes = s.lanes ∧
      (beginSweep kind c s).sounder = s.sounder ∧ (beginSweep kind c s).beams = s.beams ∧
      (beginSweep kind c s).host = s.host ∧ (beginSweep kind c s).supply = s.supply ∧
      (beginSweep kind c s).pending = s.pending := by
  simp only [beginSweep]
  (repeat' split) <;> simp

@[simp] theorem decayWhere_frame (c : Coil) (picked : Track → Bool) (s : State) :
    (decayWhere c picked s).field = s.field ∧ (decayWhere c picked s).verdict = s.verdict ∧
      (decayWhere c picked s).line = s.line ∧ (decayWhere c picked s).access = s.access ∧
      (decayWhere c picked s).notices = s.notices ∧ (decayWhere c picked s).lanes = s.lanes ∧
      (decayWhere c picked s).sounder = s.sounder ∧ (decayWhere c picked s).beams = s.beams ∧
      (decayWhere c picked s).host = s.host ∧ (decayWhere c picked s).supply = s.supply ∧
      (decayWhere c picked s).pending = s.pending := by
  simp [decayWhere]

@[simp] theorem quietRoundsZero_frame (s : State) :
    (quietRoundsZero s).field = s.field ∧ (quietRoundsZero s).track = s.track ∧
      (quietRoundsZero s).verdict = s.verdict ∧ (quietRoundsZero s).line = s.line ∧
      (quietRoundsZero s).notices = s.notices ∧ (quietRoundsZero s).lanes = s.lanes ∧
      (quietRoundsZero s).sounder = s.sounder ∧ (quietRoundsZero s).beams = s.beams ∧
      (quietRoundsZero s).host = s.host ∧ (quietRoundsZero s).supply = s.supply ∧
      (quietRoundsZero s).pending = s.pending := by
  simp [quietRoundsZero]

@[simp] theorem completeSweep_frame (c : Coil) (sweep : Sweep) (s : State) :
    (completeSweep c sweep s).verdict = s.verdict ∧ (completeSweep c sweep s).line = s.line ∧
      (completeSweep c sweep s).notices = s.notices ∧ (completeSweep c sweep s).lanes = s.lanes ∧
      (completeSweep c sweep s).sounder = s.sounder ∧ (completeSweep c sweep s).beams = s.beams ∧
      (completeSweep c sweep s).host = s.host ∧ (completeSweep c sweep s).supply = s.supply ∧
      (completeSweep c sweep s).pending = s.pending := by
  cases sweep <;> simp only [completeSweep] <;> (try split) <;> simp

@[simp] theorem buildSightings_frame (s : State) :
    (buildSightings s).field = s.field ∧ (buildSightings s).track = s.track ∧
      (buildSightings s).verdict = s.verdict ∧ (buildSightings s).line = s.line ∧
      (buildSightings s).access = s.access ∧ (buildSightings s).lanes = s.lanes ∧
      (buildSightings s).sounder = s.sounder ∧ (buildSightings s).beams = s.beams ∧
      (buildSightings s).supply = s.supply ∧ (buildSightings s).pending = s.pending := by
  refine ⟨?_, ?_, ?_, ?_, ?_, ?_, ?_, ?_, ?_, ?_⟩ <;> exact foldl_keeps _ _ (by simp) _ _

@[simp] theorem clearMarks_frame (s : State) :
    (clearMarks s).field = s.field ∧ (clearMarks s).verdict = s.verdict ∧ (clearMarks s).line = s.line ∧
      (clearMarks s).access = s.access ∧ (clearMarks s).notices = s.notices ∧ (clearMarks s).lanes = s.lanes ∧
      (clearMarks s).sounder = s.sounder ∧ (clearMarks s).beams = s.beams ∧ (clearMarks s).host = s.host ∧
      (clearMarks s).supply = s.supply ∧ (clearMarks s).pending = s.pending := by
  simp [clearMarks]

@[simp] theorem windowEnd_frame (s : State) :
    (windowEnd s).verdict = s.verdict ∧ (windowEnd s).line = s.line ∧ (windowEnd s).access = s.access ∧
      (windowEnd s).supply = s.supply ∧ (windowEnd s).pending = s.pending := by
  simp only [windowEnd, onField_verdict, onField_line, onField_access, onField_supply, onField_pending, clearMarks_frame,
    buildSightings_frame]
  refine ⟨?_, ?_, ?_, ?_, ?_⟩ <;> exact foldl_keeps _ _ (by simp) _ _

@[simp] theorem abandonWindow_frame (s : State) :
    (abandonWindow s).track = s.track ∧ (abandonWindow s).verdict = s.verdict ∧ (abandonWindow s).line = s.line ∧
      (abandonWindow s).access = s.access ∧ (abandonWindow s).notices = s.notices ∧
      (abandonWindow s).lanes = s.lanes ∧ (abandonWindow s).sounder = s.sounder ∧ (abandonWindow s).beams = s.beams ∧
      (abandonWindow s).host = s.host ∧ (abandonWindow s).supply = s.supply ∧ (abandonWindow s).pending = s.pending := by
  simp [abandonWindow]

@[simp] theorem secondHalf_frame (kind : WindowKind) (sense : DriveSense) (s : State) :
    (secondHalf kind sense s).verdict = s.verdict ∧ (secondHalf kind sense s).line = s.line ∧
      (secondHalf kind sense s).supply = s.supply ∧ (secondHalf kind sense s).pending = s.pending := by
  simp only [secondHalf]; (repeat' split) <;> simp

@[simp] theorem firstHalf_frame (kind : WindowKind) (sense : DriveSense) (s : State) :
    (firstHalf kind sense s).verdict = s.verdict ∧ (firstHalf kind sense s).line = s.line ∧
      (firstHalf kind sense s).supply = s.supply ∧ (firstHalf kind sense s).pending = s.pending := by
  simp only [firstHalf]; (repeat' split) <;> simp

@[simp] theorem endHalf_frame (w : Window) (sense : DriveSense) (s : State) :
    (endHalf w sense s).verdict = s.verdict ∧ (endHalf w sense s).line = s.line ∧
      (endHalf w sense s).supply = s.supply ∧ (endHalf w sense s).pending = s.pending := by
  simp only [endHalf]; split <;> simp

@[simp] theorem cutWindow_frame (s : State) :
    (cutWindow s).verdict = s.verdict ∧ (cutWindow s).line = s.line ∧ (cutWindow s).supply = s.supply ∧
      (cutWindow s).pending = s.pending := by
  simp only [cutWindow]
  (repeat' split) <;> simp

@[simp] theorem startWindow_frame (sense : DriveSense) (s : State) :
    (startWindow sense s).verdict = s.verdict ∧ (startWindow sense s).line = s.line ∧
      (startWindow sense s).supply = s.supply ∧ (startWindow sense s).pending = s.pending := by
  simp [startWindow]

@[simp] theorem passRead_frame (c : Coil) (seen : List ItemCode) (reply : Option Reply) (s : State) :
    (passRead c seen reply s).field = s.field ∧ (passRead c seen reply s).verdict = s.verdict ∧
      (passRead c seen reply s).line = s.line ∧ (passRead c seen reply s).pending = s.pending := by
  simp only [passRead]
  (repeat' split) <;> simp

@[simp] theorem progress_frame (half : Coil) (sweep : Sweep) (done : Bool) (sense : DriveSense) (s : State) :
    (progress half sweep done sense s).verdict = s.verdict ∧ (progress half sweep done sense s).line = s.line ∧
      (progress half sweep done sense s).supply = s.supply ∧ (progress half sweep done sense s).pending = s.pending := by
  simp only [progress]; split <;> simp

@[simp] theorem closeWindow_frame (reception : Reception) (sense : DriveSense) (s : State) :
    (closeWindow reception sense s).verdict = s.verdict ∧ (closeWindow reception sense s).line = s.line ∧
      (closeWindow reception sense s).pending = s.pending := by
  simp only [closeWindow]
  (repeat' split) <;> simp

@[simp] theorem endCall_frame (reception : Reception) (sense : DriveSense) (s : State) :
    (endCall reception sense s).verdict = s.verdict ∧ (endCall reception sense s).line = s.line ∧
      (endCall reception sense s).pending = s.pending := by
  simp only [endCall]
  (repeat' split) <;> simp

@[simp] theorem limitSweep_frame (sense : DriveSense) (s : State) :
    (limitSweep sense s).verdict = s.verdict ∧ (limitSweep sense s).line = s.line ∧
      (limitSweep sense s).supply = s.supply ∧ (limitSweep sense s).pending = s.pending := by
  simp only [limitSweep]
  (repeat' split) <;> simp

/-! ## Line, DORMANT entry and wake -/

@[simp] theorem releaseDriver_frame (s : State) :
    (releaseDriver s).field = s.field ∧ (releaseDriver s).track = s.track ∧ (releaseDriver s).verdict = s.verdict ∧
      (releaseDriver s).access = s.access ∧ (releaseDriver s).lanes = s.lanes ∧
      (releaseDriver s).sounder = s.sounder ∧ (releaseDriver s).beams = s.beams ∧ (releaseDriver s).host = s.host ∧
      (releaseDriver s).supply = s.supply ∧ (releaseDriver s).pending = s.pending := by
  simp [releaseDriver]

@[simp] theorem clearSlots_frame (s : State) :
    (clearSlots s).field = s.field ∧ (clearSlots s).track = s.track ∧ (clearSlots s).verdict = s.verdict ∧
      (clearSlots s).access = s.access ∧ (clearSlots s).notices = s.notices ∧ (clearSlots s).lanes = s.lanes ∧
      (clearSlots s).sounder = s.sounder ∧ (clearSlots s).beams = s.beams ∧ (clearSlots s).host = s.host ∧
      (clearSlots s).supply = s.supply ∧ (clearSlots s).pending = s.pending := by
  simp [clearSlots]

@[simp] theorem freshClasses_frame (s : State) :
    (freshClasses s).field = s.field ∧ (freshClasses s).track = s.track ∧ (freshClasses s).verdict = s.verdict ∧
      (freshClasses s).access = s.access ∧ (freshClasses s).notices = s.notices ∧ (freshClasses s).lanes = s.lanes ∧
      (freshClasses s).sounder = s.sounder ∧ (freshClasses s).beams = s.beams ∧ (freshClasses s).host = s.host ∧
      (freshClasses s).supply = s.supply ∧ (freshClasses s).pending = s.pending := by
  simp [freshClasses]

@[simp] theorem listenEntry_frame (s : State) :
    (listenEntry s).field = s.field ∧ (listenEntry s).track = s.track ∧ (listenEntry s).verdict = s.verdict ∧
      (listenEntry s).access = s.access ∧ (listenEntry s).beams = s.beams ∧ (listenEntry s).supply = s.supply ∧
      (listenEntry s).pending = s.pending := by
  simp [listenEntry]

@[simp] theorem loneEntry_frame (timer : Nat) (s : State) :
    (loneEntry timer s).field = s.field ∧ (loneEntry timer s).track = s.track ∧
      (loneEntry timer s).verdict = s.verdict ∧ (loneEntry timer s).beams = s.beams ∧
      (loneEntry timer s).supply = s.supply ∧ (loneEntry timer s).pending = s.pending := by
  simp [loneEntry]

@[simp] theorem clashEntry_frame (s : State) :
    (clashEntry s).track = s.track ∧ (clashEntry s).verdict = s.verdict ∧ (clashEntry s).access = s.access ∧
      (clashEntry s).lanes = s.lanes ∧ (clashEntry s).sounder = s.sounder ∧ (clashEntry s).beams = s.beams ∧
      (clashEntry s).supply = s.supply ∧ (clashEntry s).pending = s.pending := by
  simp [clashEntry]

@[simp] theorem silentEntry_frame (s : State) :
    (silentEntry s).field = s.field ∧ (silentEntry s).track = s.track ∧ (silentEntry s).verdict = s.verdict ∧
      (silentEntry s).access = s.access ∧ (silentEntry s).beams = s.beams ∧ (silentEntry s).supply = s.supply ∧
      (silentEntry s).pending = s.pending := by
  simp [silentEntry]

@[simp] theorem freeEntry_frame (timer : Nat) (s : State) :
    (freeEntry timer s).field = s.field ∧ (freeEntry timer s).track = s.track ∧
      (freeEntry timer s).verdict = s.verdict ∧ (freeEntry timer s).access = s.access ∧
      (freeEntry timer s).notices = s.notices ∧ (freeEntry timer s).beams = s.beams ∧
      (freeEntry timer s).supply = s.supply ∧ (freeEntry timer s).pending = s.pending := by
  simp only [freeEntry]; split <;> simp

@[simp] theorem dormantEntry_frame (s : State) :
    (dormantEntry s).verdict = s.verdict ∧ (dormantEntry s).beams = s.beams ∧ (dormantEntry s).pending = s.pending := by
  simp [dormantEntry]

@[simp] theorem wake_frame (cadence : Cadence) (s : State) :
    (wake cadence s).field = s.field ∧ (wake cadence s).track = s.track ∧ (wake cadence s).verdict = s.verdict ∧
      (wake cadence s).beams = s.beams ∧ (wake cadence s).pending = s.pending := by
  simp only [wake]; split <;> simp

@[simp] theorem handCalm_frame (j : Fin 16) (value : Cadence) (s : State) :
    (handCalm j value s).field = s.field ∧ (handCalm j value s).track = s.track ∧
      (handCalm j value s).verdict = s.verdict ∧ (handCalm j value s).beams = s.beams ∧
      (handCalm j value s).pending = s.pending := by
  simp only [handCalm]; (repeat' split) <;> simp

@[simp] theorem handCode_frame (j : Fin 16) (o : SlotOutcome) (s : State) :
    (handCode j o s).field = s.field ∧ (handCode j o s).track = s.track ∧ (handCode j o s).verdict = s.verdict ∧
      (handCode j o s).access = s.access ∧ (handCode j o s).notices = s.notices ∧ (handCode j o s).beams = s.beams ∧
      (handCode j o s).pending = s.pending := by
  simp only [handCode]
  (repeat' split) <;> simp

@[simp] theorem handBeams_frame (j : Fin 16) (o : SlotOutcome) (s : State) :
    (handBeams j o s).field = s.field ∧ (handBeams j o s).verdict = s.verdict ∧ (handBeams j o s).line = s.line ∧
      (handBeams j o s).access = s.access ∧ (handBeams j o s).notices = s.notices ∧
      (handBeams j o s).lanes = s.lanes ∧ (handBeams j o s).sounder = s.sounder ∧ (handBeams j o s).beams = s.beams ∧
      (handBeams j o s).host = s.host ∧ (handBeams j o s).supply = s.supply ∧ (handBeams j o s).pending = s.pending := by
  simp only [handBeams]
  (repeat' split) <;> simp

@[simp] theorem putSlot_frame (j : Fin 16) (o : SlotOutcome) (s : State) :
    (putSlot j o s).field = s.field ∧ (putSlot j o s).track = s.track ∧ (putSlot j o s).verdict = s.verdict ∧
      (putSlot j o s).access = s.access ∧ (putSlot j o s).notices = s.notices ∧ (putSlot j o s).lanes = s.lanes ∧
      (putSlot j o s).sounder = s.sounder ∧ (putSlot j o s).beams = s.beams ∧ (putSlot j o s).host = s.host ∧
      (putSlot j o s).supply = s.supply ∧ (putSlot j o s).pending = s.pending := by
  simp [putSlot]

@[simp] theorem slotEnd_frame (j : Fin 16) (o : SlotOutcome) (s : State) :
    (slotEnd j o s).field = s.field ∧ (slotEnd j o s).verdict = s.verdict ∧ (slotEnd j o s).beams = s.beams ∧
      (slotEnd j o s).pending = s.pending := by
  simp only [slotEnd]; (repeat' split) <;> simp

@[simp] theorem missSlot_frame (missed : Nat → Bool) (s : State) (j : Fin 16) :
    (missSlot missed s j).field = s.field ∧ (missSlot missed s j).track = s.track ∧
      (missSlot missed s j).verdict = s.verdict ∧ (missSlot missed s j).notices = s.notices ∧
      (missSlot missed s j).lanes = s.lanes ∧ (missSlot missed s j).sounder = s.sounder ∧
      (missSlot missed s j).beams = s.beams ∧ (missSlot missed s j).host = s.host ∧
      (missSlot missed s j).supply = s.supply ∧ (missSlot missed s j).pending = s.pending := by
  simp only [missSlot, handCalm]; (repeat' split) <;> simp_all

@[simp] theorem missSlots_frame (missed : Nat → Bool) (s : State) :
    (missSlots missed s).field = s.field ∧ (missSlots missed s).track = s.track ∧
      (missSlots missed s).verdict = s.verdict ∧ (missSlots missed s).notices = s.notices ∧
      (missSlots missed s).lanes = s.lanes ∧ (missSlots missed s).sounder = s.sounder ∧
      (missSlots missed s).beams = s.beams ∧ (missSlots missed s).host = s.host ∧
      (missSlots missed s).supply = s.supply ∧ (missSlots missed s).pending = s.pending := by
  refine ⟨?_, ?_, ?_, ?_, ?_, ?_, ?_, ?_, ?_, ?_⟩ <;> exact foldl_keeps _ _ (by simp) _ _

@[simp] theorem framingError_frame (began : Nat) (s : State) :
    (framingError began s).field = s.field ∧ (framingError began s).track = s.track ∧
      (framingError began s).verdict = s.verdict ∧ (framingError began s).beams = s.beams ∧
      (framingError began s).pending = s.pending := by
  simp [framingError]

/-! ## Round start -/

@[simp] theorem minuteAdvance_frame (s : State) :
    (minuteAdvance s).field = s.field ∧ (minuteAdvance s).track = s.track ∧ (minuteAdvance s).line = s.line ∧
      (minuteAdvance s).access = s.access ∧ (minuteAdvance s).notices = s.notices ∧
      (minuteAdvance s).lanes = s.lanes ∧ (minuteAdvance s).sounder = s.sounder ∧ (minuteAdvance s).beams = s.beams ∧
      (minuteAdvance s).host = s.host ∧ (minuteAdvance s).supply = s.supply ∧ (minuteAdvance s).pending = s.pending := by
  simp only [minuteAdvance]
  (repeat' split) <;> simp

@[simp] theorem calmTest_frame (s : State) :
    (calmTest s).field = s.field ∧ (calmTest s).track = s.track ∧ (calmTest s).verdict = s.verdict ∧
      (calmTest s).line = s.line ∧ (calmTest s).notices = s.notices ∧ (calmTest s).lanes = s.lanes ∧
      (calmTest s).sounder = s.sounder ∧ (calmTest s).beams = s.beams ∧ (calmTest s).host = s.host ∧
      (calmTest s).supply = s.supply ∧ (calmTest s).pending = s.pending := by
  simp only [calmTest]
  (repeat' split) <;> simp

@[simp] theorem quietAdvance_frame (s : State) :
    (quietAdvance s).field = s.field ∧ (quietAdvance s).track = s.track ∧ (quietAdvance s).verdict = s.verdict ∧
      (quietAdvance s).line = s.line ∧ (quietAdvance s).notices = s.notices ∧ (quietAdvance s).lanes = s.lanes ∧
      (quietAdvance s).sounder = s.sounder ∧ (quietAdvance s).beams = s.beams ∧ (quietAdvance s).host = s.host ∧
      (quietAdvance s).supply = s.supply ∧ (quietAdvance s).pending = s.pending := by
  simp only [quietAdvance]
  (repeat' split) <;> simp

@[simp] theorem fieldClassUpdate_frame (how : RoundHow) (s : State) :
    (fieldClassUpdate how s).field = s.field ∧ (fieldClassUpdate how s).track = s.track ∧
      (fieldClassUpdate how s).verdict = s.verdict ∧ (fieldClassUpdate how s).access = s.access ∧
      (fieldClassUpdate how s).notices = s.notices ∧ (fieldClassUpdate how s).lanes = s.lanes ∧
      (fieldClassUpdate how s).sounder = s.sounder ∧ (fieldClassUpdate how s).beams = s.beams ∧
      (fieldClassUpdate how s).host = s.host ∧ (fieldClassUpdate how s).supply = s.supply ∧
      (fieldClassUpdate how s).pending = s.pending := by
  simp only [fieldClassUpdate]
  (repeat' split) <;> simp

@[simp] theorem beamsAtRound_frame (s : State) :
    (beamsAtRound s).field = s.field ∧ (beamsAtRound s).verdict = s.verdict ∧ (beamsAtRound s).line = s.line ∧
      (beamsAtRound s).access = s.access ∧ (beamsAtRound s).notices = s.notices ∧ (beamsAtRound s).lanes = s.lanes ∧
      (beamsAtRound s).sounder = s.sounder ∧ (beamsAtRound s).beams = s.beams ∧ (beamsAtRound s).host = s.host ∧
      (beamsAtRound s).supply = s.supply ∧ (beamsAtRound s).pending = s.pending := by
  simp only [beamsAtRound]
  (repeat' split) <;> simp

@[simp] theorem quietMinuteTurn_frame (s : State) :
    (quietMinuteTurn s).verdict = s.verdict ∧ (quietMinuteTurn s).beams = s.beams ∧
      (quietMinuteTurn s).pending = s.pending := by
  simp only [quietMinuteTurn]; (repeat' split) <;> simp

@[simp] theorem pendingTest_frame (s : State) :
    (pendingTest s).verdict = s.verdict ∧ (pendingTest s).beams = s.beams ∧ (pendingTest s).pending = s.pending := by
  simp only [pendingTest]
  (repeat' split) <;> simp

@[simp] theorem dormantAdvance_frame (s : State) :
    (dormantAdvance s).verdict = s.verdict ∧ (dormantAdvance s).beams = s.beams ∧
      (dormantAdvance s).pending = s.pending := by
  simp only [dormantAdvance]
  (repeat' split) <;> simp

@[simp] theorem requestDecide_frame (s : State) :
    (requestDecide s).field = s.field ∧ (requestDecide s).track = s.track ∧ (requestDecide s).verdict = s.verdict ∧
      (requestDecide s).line = s.line ∧ (requestDecide s).notices = s.notices ∧ (requestDecide s).lanes = s.lanes ∧
      (requestDecide s).sounder = s.sounder ∧ (requestDecide s).beams = s.beams ∧ (requestDecide s).host = s.host ∧
      (requestDecide s).supply = s.supply ∧ (requestDecide s).pending = s.pending := by
  simp only [requestDecide]
  (repeat' split) <;> simp

@[simp] theorem formSlotWord_frame (s : State) :
    (formSlotWord s).field = s.field ∧ (formSlotWord s).track = s.track ∧ (formSlotWord s).verdict = s.verdict ∧
      (formSlotWord s).access = s.access ∧ (formSlotWord s).notices = s.notices ∧ (formSlotWord s).lanes = s.lanes ∧
      (formSlotWord s).sounder = s.sounder ∧ (formSlotWord s).beams = s.beams ∧ (formSlotWord s).host = s.host ∧
      (formSlotWord s).supply = s.supply ∧ (formSlotWord s).pending = s.pending := by
  simp [formSlotWord]

@[simp] theorem windowAtRound_frame (how : RoundHow) (sense : DriveSense) (s : State) :
    (windowAtRound how sense s).verdict = s.verdict ∧ (windowAtRound how sense s).line = s.line ∧
      (windowAtRound how sense s).supply = s.supply ∧ (windowAtRound how sense s).pending = s.pending := by
  simp only [windowAtRound]
  (repeat' split) <;> simp

@[simp] theorem roundTask_frame (how : RoundHow) (sense : DriveSense) (task : RoundTask) (s : State) :
    (roundTask how sense task s).pending = s.pending := by
  cases task <;> simp [roundTask]

@[simp] theorem roundStart_frame (how : RoundHow) (timer : Nat) (input : RoundInput) (s : State) :
    (roundStart how timer input s).pending = s.pending := by
  simp only [roundStart, missSlots_frame, onAccess_pending, onLine_pending]
  exact (foldl_keeps _ _ (by simp) _ _).trans rfl

/-! ## Notices received -/

@[simp] theorem takeSightings_frame (station : Fin 16) (entries : List Sighting) (s : State) :
    (takeSightings station entries s).field = s.field ∧ (takeSightings station entries s).verdict = s.verdict ∧
      (takeSightings station entries s).line = s.line ∧ (takeSightings station entries s).access = s.access ∧
      (takeSightings station entries s).notices = s.notices ∧ (takeSightings station entries s).lanes = s.lanes ∧
      (takeSightings station entries s).sounder = s.sounder ∧ (takeSightings station entries s).beams = s.beams ∧
      (takeSightings station entries s).host = s.host ∧ (takeSightings station entries s).supply = s.supply ∧
      (takeSightings station entries s).pending = s.pending := by
  unfold takeSightings
  (repeat' split) <;> first | simp | (refine ⟨?_, ?_, ?_, ?_, ?_, ?_, ?_, ?_, ?_, ?_, ?_⟩ <;> exact foldl_keeps _ _ (by simp) _ _)

@[simp] theorem takeVerdicts_frame (station : Fin 16) (entries : List VerdictEntry) (s : State) :
    (takeVerdicts station entries s).field = s.field ∧ (takeVerdicts station entries s).verdict = s.verdict ∧
      (takeVerdicts station entries s).line = s.line ∧ (takeVerdicts station entries s).access = s.access ∧
      (takeVerdicts station entries s).notices = s.notices ∧ (takeVerdicts station entries s).lanes = s.lanes ∧
      (takeVerdicts station entries s).sounder = s.sounder ∧ (takeVerdicts station entries s).beams = s.beams ∧
      (takeVerdicts station entries s).supply = s.supply ∧ (takeVerdicts station entries s).pending = s.pending := by
  simp only [takeVerdicts]
  split <;> refine ⟨?_, ?_, ?_, ?_, ?_, ?_, ?_, ?_, ?_, ?_⟩ <;>
    first
      | exact (foldl_keeps _ _ (by simp) _ _).trans (foldl_keeps _ _ (by simp) _ _)
      | exact foldl_keeps _ _ (by simp) _ _

@[simp] theorem dispatchNotice_frame (station : Fin 16) (body : NoticeBody) (s : State) :
    (dispatchNotice station body s).field = s.field ∧ (dispatchNotice station body s).line = s.line ∧
      (dispatchNotice station body s).access = s.access ∧ (dispatchNotice station body s).notices = s.notices ∧
      (dispatchNotice station body s).lanes = s.lanes ∧ (dispatchNotice station body s).sounder = s.sounder ∧
      (dispatchNotice station body s).beams = s.beams ∧ (dispatchNotice station body s).supply = s.supply ∧
      (dispatchNotice station body s).pending = s.pending := by
  cases body <;> simp only [dispatchNotice]
  · simp
  · simp
  · refine ⟨?_, ?_, ?_, ?_, ?_, ?_, ?_, ?_, ?_⟩ <;> exact foldl_keeps _ _ (by simp) _ _

@[simp] theorem checkNotice_frame (data : List Bool) (s : State) :
    (checkNotice data s).field = s.field ∧ (checkNotice data s).line = s.line ∧
      (checkNotice data s).access = s.access ∧ (checkNotice data s).notices = s.notices ∧
      (checkNotice data s).lanes = s.lanes ∧ (checkNotice data s).sounder = s.sounder ∧
      (checkNotice data s).beams = s.beams ∧ (checkNotice data s).supply = s.supply ∧
      (checkNotice data s).pending = s.pending := by
  simp only [checkNotice]
  (repeat' split) <;> simp

@[simp] theorem receiveSlot_frame (data : List Bool) (s : State) :
    (receiveSlot data s).field = s.field ∧ (receiveSlot data s).line = s.line ∧
      (receiveSlot data s).access = s.access ∧ (receiveSlot data s).notices = s.notices ∧
      (receiveSlot data s).lanes = s.lanes ∧ (receiveSlot data s).sounder = s.sounder ∧
      (receiveSlot data s).beams = s.beams ∧ (receiveSlot data s).supply = s.supply ∧
      (receiveSlot data s).pending = s.pending := by
  simp only [receiveSlot]
  (repeat' split) <;> simp

@[simp] theorem classAfterSlot_frame (data : List Bool) (s : State) :
    (classAfterSlot data s).field = s.field ∧ (classAfterSlot data s).track = s.track ∧
      (classAfterSlot data s).verdict = s.verdict ∧ (classAfterSlot data s).access = s.access ∧
      (classAfterSlot data s).notices = s.notices ∧ (classAfterSlot data s).lanes = s.lanes ∧
      (classAfterSlot data s).sounder = s.sounder ∧ (classAfterSlot data s).beams = s.beams ∧
      (classAfterSlot data s).host = s.host ∧ (classAfterSlot data s).supply = s.supply ∧
      (classAfterSlot data s).pending = s.pending := by
  simp only [classAfterSlot]
  (repeat' split) <;> simp

@[simp] theorem putFlight_frame (f : Flight) (s : State) :
    (putFlight f s).field = s.field ∧ (putFlight f s).track = s.track ∧ (putFlight f s).verdict = s.verdict ∧
      (putFlight f s).line = s.line ∧ (putFlight f s).access = s.access ∧ (putFlight f s).lanes = s.lanes ∧
      (putFlight f s).sounder = s.sounder ∧ (putFlight f s).beams = s.beams ∧ (putFlight f s).host = s.host ∧
      (putFlight f s).supply = s.supply ∧ (putFlight f s).pending = s.pending := by
  simp [putFlight]

@[simp] theorem unmark_frame (s : State) :
    (unmark s).field = s.field ∧ (unmark s).track = s.track ∧ (unmark s).verdict = s.verdict ∧
      (unmark s).line = s.line ∧ (unmark s).access = s.access ∧ (unmark s).lanes = s.lanes ∧
      (unmark s).sounder = s.sounder ∧ (unmark s).beams = s.beams ∧ (unmark s).host = s.host ∧
      (unmark s).supply = s.supply ∧ (unmark s).pending = s.pending := by
  simp [unmark]

/-- The readback of placed bits acts on the in-flight mark and the line error count alone (R112, R113). -/
@[simp] theorem readBackNotice_frame (data : List Bool) (s : State) :
    (readBackNotice data s).field = s.field ∧ (readBackNotice data s).track = s.track ∧
      (readBackNotice data s).verdict = s.verdict ∧ (readBackNotice data s).line = s.line ∧
      (readBackNotice data s).access = s.access ∧ (readBackNotice data s).lanes = s.lanes ∧
      (readBackNotice data s).sounder = s.sounder ∧ (readBackNotice data s).beams = s.beams ∧
      (readBackNotice data s).supply = s.supply ∧ (readBackNotice data s).pending = s.pending := by
  simp only [readBackNotice]
  (repeat' split) <;> simp

@[simp] theorem slotEndSynced_frame (data : List Bool) (s : State) :
    (slotEndSynced data s).field = s.field ∧ (slotEndSynced data s).access = s.access ∧
      (slotEndSynced data s).lanes = s.lanes ∧ (slotEndSynced data s).sounder = s.sounder ∧
      (slotEndSynced data s).beams = s.beams ∧ (slotEndSynced data s).supply = s.supply ∧
      (slotEndSynced data s).pending = s.pending := by
  simp only [slotEndSynced]
  (repeat' split) <;> simp

/-! ## Resets -/

@[simp] theorem powerOnState_frame (cause : ResetCause) (straps : Straps) (s : State) :
    (powerOnState cause straps s).pending = s.pending := rfl

@[simp] theorem engineReset_frame (s : State) :
    (engineReset s).verdict = s.verdict ∧ (engineReset s).pending = s.pending := by
  simp [engineReset]

@[simp] theorem countsReset_frame (s : State) :
    (countsReset s).field = s.field ∧ (countsReset s).track = s.track ∧ (countsReset s).verdict = s.verdict ∧
      (countsReset s).line = s.line ∧ (countsReset s).access = s.access ∧ (countsReset s).notices = s.notices ∧
      (countsReset s).lanes = s.lanes ∧ (countsReset s).sounder = s.sounder ∧ (countsReset s).supply = s.supply ∧
      (countsReset s).pending = s.pending := by
  simp [countsReset]

end Sys2Proof.Machine
end

