-- ==== Sys2Proof/Laws/Exec.lean ====
section
/-! SUPPORT. What a command and a step do, said once: `effect c` is the change command `c` makes to the part, and `exec_eq` and
`step_cases` say when it is made. -/

namespace Sys2Proof.Machine

/-- Whether a command is a POWER-ON row, taken also while the part is held in reset (R187). -/
def isPowerOn : Instr → Bool
  | .powerOnHold _ => true
  | .powerOn _ _ => true
  | _ => false

/-- The change a command makes when it is taken. -/
def effect (c : Instr) : State → State :=
  match c with
  | .powerOnHold source => holdInReset source
  | .powerOn last pins => powerOnState (causeOf last) (readStraps pins)
  | .markEnd began length input => endMark began length input
  | .roundTimerExpiry input => expireTimer input
  | .followingTimeout input => timeOutFollowing input
  | .startMarkSend line => reachRoundEnd line
  | .calmEntry => calmTest
  | .trackExpiry => expireTracks
  | .cacheAgeing => ageCache
  | .staleNotice => dropStale
  | .minuteBoundary => (fun s => if minuteDue s then minuteTurn s else s)
  | .soundLimitExpiry lane => (fun s => if soundLimitDue lane s then hushLane lane .LIMIT s else s)
  | .quietMinute => (fun s => if quietMinuteDue s then pendingTest (quietMinuteTurn s) else s)
  | .listenTimeout => (fun s => if s.line.state = .LISTEN then endListen s else s)
  | .lineStuck timer input => stickLine timer input
  | .lineStuckTimingFree timer input => freeTiming timer input
  | .loneRecovery => leaveLone
  | .timingFollowingRestored => followAgain
  | .slotReceived station bits => slotEnd station (slotOutcome bits)
  | .ownSlotReadback bits => readBackOwn bits
  | .requestFieldEnd levels => endRequests levels
  | .noticeSlotStart slot => startNotice slot
  | .noticeSlotEnd slot levels => endNotice slot levels
  | .replyWindowEnd reception sense => closeWindow reception sense
  | .followCallEnd reception sense => endCall reception sense
  | .halfSweepTimeLimit sense => limitSweep sense
  | .sounderEntryEnd => entryEnd
  | .sounderEndMarkerRecheck => recheck
  | .flashToggle lane => toggleFlash lane
  | .beamChange hall street => sampleBeams hall street
  | .clearPress => sampleClear true
  | .hostFrameBad bytes => receiveBytes bytes
  | .hostByteGapTimeout before late => (fun s => receiveByte late (byteGap (receiveBytes before s)))
  | .hostFrameBusy code payload => completeFrame { code := code, payload := payload }
  | .unknownCommand code payload => (fun s => completeFrame { code := code, payload := payload } s)
  | .identify payload => commandFrame 0x01 0 payload actIdentify
  | .status payload => commandFrame 0x02 0 payload actStatus
  | .tracks payload => commandFrame 0x03 1 payload (actTracks (payloadByte payload 0).toNat)
  | .counts payload => commandFrame 0x04 0 payload actCounts
  | .takeCounts payload => commandFrame 0x05 0 payload actTakeCounts
  | .reports payload => commandFrame 0x06 1 payload (actReports (payloadByte payload 0).toNat)
  | .stream payload => commandFrame 0x07 1 payload (actStream (payloadByte payload 0))
  | .setParam payload => commandFrame 0x08 3 payload (actSet (payloadByte payload 0) (natOfBytes (payload.drop 1)))
  | .getParam payload => commandFrame 0x09 1 payload (actGet (payloadByte payload 0))
  | .excuseAdd payload => commandFrame 0x0A 9 payload (actExcuseAdd (payloadItem payload) (payloadByte payload 8))
  | .excuseDrop payload => commandFrame 0x0B 8 payload (actExcuseDrop (payloadItem payload))
  | .excuseList payload => commandFrame 0x0C 1 payload (actExcuseList (payloadByte payload 0).toNat)
  | .hush payload => commandFrame 0x0D 1 payload (actHush (payloadByte payload 0))
  | .cadence payload => commandFrame 0x0E 7 payload (actCadence payload)
  | .rest payload => commandFrame 0x0F 0 payload actRest
  | .resetFull more => commandFrame 0x10 1 (1 :: more) (actReset 1)
  | .resetEngine more => commandFrame 0x10 1 (2 :: more) (actReset 2)
  | .resetCounts more => commandFrame 0x10 1 (3 :: more) (actReset 3)
  | .responseSent pins => responseEnd pins
  | .reportFrameSent => reportEnd
  | .runTooShort => sendAfterRun
  | .beamSample hall street => (fun s => sampleBeams hall street s)
  | .clearSample pressed => (fun s => sampleClear pressed s)
  | .sounderSample => giveSample

/-- Every command answers a next state: its effect, or, while the part is held in reset, no change for all but POWER-ON. -/
theorem exec_eq (c : Instr) (s : State) :
    exec c s = .next (if heldInReset s && !isPowerOn c then s else effect c s) := by
  cases c <;> simp [isPowerOn] <;> rfl

/-- A step idles, or takes the command at the front of the queue. -/
theorem step_cases {s t : State} (h : step s = .next t) :
    (s.pending = [] ∧ t = s) ∨
      ∃ c rest, s.pending = c :: rest ∧
        t = if heldInReset s && !isPowerOn c then s.withPending rest else effect c (s.withPending rest) := by
  unfold step at h
  split at h
  · exact .inl ⟨‹_›, by simpa using h.symm⟩
  · rename_i c rest hp
    rw [exec_eq] at h
    exact .inr ⟨c, rest, hp, by simpa [heldInReset] using h.symm⟩

/-- What every effect keeps and the queue does not touch, every step keeps. -/
theorem step_keeps (P : State → Prop) (queue : ∀ s q, P s → P (s.withPending q)) (kept : ∀ c s, P s → P (effect c s))
    {s t : State} (hs : P s) (h : step s = .next t) : P t := by
  obtain ⟨-, rfl⟩ | ⟨c, rest, -, rfl⟩ := step_cases h
  · exact hs
  · split
    · exact queue s rest hs
    · exact kept c _ (queue s rest hs)

end Sys2Proof.Machine
end

