-- ==== Sys2Proof/Laws/Fields.lean ====
section
/-! SUPPORT. The levels of the fields of a round: what a placed bit, a spacer, a picked bit and a request bit read, once each;
how a complete frame is taken, and when a RESET response is outstanding. -/

namespace Sys2Proof.Machine

/-! ## Placed and picked bits (R85, R102, R197) -/

@[simp] theorem placeData_length (times : Nat) (data : List Bool) : (placeData times data).length = times := by
  simp [placeData]

/-- The bit time of a data bit is no spacer, and leads back to its number. -/
theorem dataTime_spacer (d : Nat) : isSpacer (dataTime d) = false ∧ dataTime d - dataTime d / 8 = d := by
  simp only [isSpacer, dataTime]
  exact ⟨decide_eq_false (by omega), by omega⟩

/-- A data bit stands at its bit time. -/
theorem placeData_dataTime {times d : Nat} (data : List Bool) (h : dataTime d < times) :
    (placeData times data).getD (dataTime d) true = data.getD d true := by
  simp [placeData, List.getD_eq_getElem?_getD, h, (dataTime_spacer d).1, (dataTime_spacer d).2]

/-- A spacer is recessive. -/
theorem placeData_spacer {times i : Nat} (data : List Bool) (h : isSpacer i = true) :
    (placeData times data).getD i true = true := by
  by_cases hi : i < times <;> simp [placeData, List.getD_eq_getElem?_getD, hi, h]

@[simp] theorem pickData_length (count : Nat) (levels : List Bool) : (pickData count levels).length = count := by
  simp [pickData]

/-- A picked bit is the level of its bit time. -/
theorem pickData_getD {count d : Nat} (levels : List Bool) (h : d < count) :
    (pickData count levels).getD d true = levels.getD (dataTime d) true := by
  simp [pickData, List.getD_eq_getElem?_getD, h]

/-- What one pedestal alone places in a notice slot, every other reads: its data bits, then recessive ones. -/
theorem slotData_placed (data : List Bool) :
    slotData (placeData noticeBitTimes data) = (List.range noticeDataBits).map fun d => data.getD d true := by
  refine List.map_congr_left fun d hd => placeData_dataTime data ?_
  simp only [List.mem_range, noticeDataBits, noticeBitTimes, dataTime] at hd ⊢
  omega

/-! ## The request field (R96, R195) -/

/-- A station stands in the request set exactly when its bit time was read dominant. -/
theorem requestSetOf_getLsbD (levels : BitVec 20) (j : Fin 16) :
    (requestSetOf levels).getLsbD j.val = !levels.getLsbD (dataTime j.val) := by
  have bit : (requestSetOf levels).getLsbD j.val =
      !(levels.extractLsb' 16 2 ++ levels.extractLsb' 8 7 ++ levels.extractLsb' 0 7 : BitVec (2 + 7 + 7)).getLsbD j.val := by
    have h := BitVec.getLsbD_not (i := j.val)
      (x := (levels.extractLsb' 16 2 ++ levels.extractLsb' 8 7 ++ levels.extractLsb' 0 7 : BitVec (2 + 7 + 7)))
    rw [decide_eq_true j.isLt, Bool.true_and] at h
    exact h
  rw [bit, BitVec.getLsbD_append, BitVec.getLsbD_append]
  revert j
  simp only [dataTime, Fin.forall_fin_succ]
  simp

/-! ## Driven levels (R84) -/

theorem released_all (times : Nat) : ∀ b ∈ released times, b = true := fun _ h => (List.mem_replicate.mp h).2

/-- Outside SYNCED, and held in reset, the driver is released in every field. -/
theorem driven_released {s : State} (h : s.mayDrive = false) :
    s.markDriven = released 16 ∧ s.slotDriven = released 16 ∧ s.requestDriven = released requestBitTimes ∧
      s.noticeDriven = released noticeBitTimes := by
  refine ⟨by simp [State.markDriven, h], by simp [State.slotDriven, h], by simp [State.requestDriven, State.requestBit, h], ?_⟩
  unfold State.noticeDriven
  split <;> simp [h]

/-! ## Taking a frame (R174, R175) -/

/-- A complete frame that is taken at once: its response is outstanding before the command acts, and is made after it. -/
theorem takeFrame_taken (f : Frame) (take : State → State × Response) (s : State) (short : f.payload.length ≤ Config.maxPayload)
    (awake : s.supply.dormancy = .AWAKE) (free : s.host.outstanding = none) :
    takeFrame f take s =
      respond (take (claimResponse f (frameReceived f s))).2 (take (claimResponse f (frameReceived f s))).1 := by
  simp [takeFrame, Nat.not_lt.mpr short, frameReceived, State.onHost, awake, free]

/-- A response to a RESET command is outstanding: one of code 0x90 or 0xD0 (R191, R201). -/
theorem resetOutstanding_iff (s : State) :
    resetOutstanding s = true ↔ ∃ r, s.host.outstanding = some r ∧ (r.frame.code = 0x90 ∨ r.frame.code = 0xD0) := by
  unfold resetOutstanding
  cases s.host.outstanding <;> simp [answersReset]

end Sys2Proof.Machine
end

