-- ==== Sys2Proof/Laws/Parts.lean ====
section
/-! SUPPORT. For each shared operation, the parts that it leaves as they are of the blocks it can change. -/

namespace Sys2Proof.Machine

@[simp] theorem onErrors_errors (f : ErrorCounts → ErrorCounts) (s : State) :
    (onErrors f s).host.errors = f s.host.errors := rfl

/-! ## Counts, report ring, sounder, lanes -/

@[simp] theorem onErrors_parts (f : ErrorCounts → ErrorCounts) (s : State) :
    (onErrors f s).host.receiver = s.host.receiver ∧ (onErrors f s).host.buffer = s.host.buffer ∧
      (onErrors f s).host.outstanding = s.host.outstanding ∧ (onErrors f s).host.params = s.host.params ∧
      (onErrors f s).host.streaming = s.host.streaming := by
  simp [onErrors]

@[simp] theorem startDelivery_parts (s : State) :
    (startDelivery s).host.receiver = s.host.receiver ∧ (startDelivery s).host.buffer = s.host.buffer ∧
      (startDelivery s).host.outstanding = s.host.outstanding ∧ (startDelivery s).host.params = s.host.params ∧
      (startDelivery s).host.streaming = s.host.streaming ∧
      (startDelivery s).host.errors.lineErrors = s.host.errors.lineErrors ∧
      (startDelivery s).host.errors.noticeCrc = s.host.errors.noticeCrc ∧
      (startDelivery s).host.errors.evictions = s.host.errors.evictions ∧
      (startDelivery s).host.errors.hostFrames = s.host.errors.hostFrames := by
  simp only [startDelivery]
  (repeat' split) <;> simp

@[simp] theorem makeRecord_parts (body : ReportBody) (s : State) :
    (makeRecord body s).host.receiver = s.host.receiver ∧ (makeRecord body s).host.buffer = s.host.buffer ∧
      (makeRecord body s).host.outstanding = s.host.outstanding ∧ (makeRecord body s).host.params = s.host.params ∧
      (makeRecord body s).host.streaming = s.host.streaming ∧
      (makeRecord body s).host.errors.lineErrors = s.host.errors.lineErrors ∧
      (makeRecord body s).host.errors.noticeCrc = s.host.errors.noticeCrc ∧
      (makeRecord body s).host.errors.evictions = s.host.errors.evictions ∧
      (makeRecord body s).host.errors.hostFrames = s.host.errors.hostFrames := by
  simp only [makeRecord]
  (repeat' split) <;> simp

@[simp] theorem lineError_parts (s : State) :
    (lineError s).host.receiver = s.host.receiver ∧ (lineError s).host.buffer = s.host.buffer ∧
      (lineError s).host.outstanding = s.host.outstanding ∧ (lineError s).host.params = s.host.params ∧
      (lineError s).host.streaming = s.host.streaming := by
  simp [lineError]

@[simp] theorem noticeCrcError_parts (s : State) :
    (noticeCrcError s).host.receiver = s.host.receiver ∧ (noticeCrcError s).host.buffer = s.host.buffer ∧
      (noticeCrcError s).host.outstanding = s.host.outstanding ∧ (noticeCrcError s).host.params = s.host.params ∧
      (noticeCrcError s).host.streaming = s.host.streaming := by
  simp [noticeCrcError]

@[simp] theorem evictionCounted_parts (s : State) :
    (evictionCounted s).host.receiver = s.host.receiver ∧ (evictionCounted s).host.buffer = s.host.buffer ∧
      (evictionCounted s).host.outstanding = s.host.outstanding ∧ (evictionCounted s).host.params = s.host.params ∧
      (evictionCounted s).host.streaming = s.host.streaming := by
  simp [evictionCounted]

@[simp] theorem outboxDropped_parts (s : State) :
    (outboxDropped s).host.receiver = s.host.receiver ∧ (outboxDropped s).host.buffer = s.host.buffer ∧
      (outboxDropped s).host.outstanding = s.host.outstanding ∧ (outboxDropped s).host.params = s.host.params ∧
      (outboxDropped s).host.streaming = s.host.streaming ∧
      (outboxDropped s).host.errors.lineErrors = s.host.errors.lineErrors ∧
      (outboxDropped s).host.errors.noticeCrc = s.host.errors.noticeCrc ∧
      (outboxDropped s).host.errors.evictions = s.host.errors.evictions ∧
      (outboxDropped s).host.errors.hostFrames = s.host.errors.hostFrames := by
  simp [outboxDropped]

@[simp] theorem hostFrameCounted_parts (s : State) :
    (hostFrameCounted s).host.receiver = s.host.receiver ∧ (hostFrameCounted s).host.buffer = s.host.buffer ∧
      (hostFrameCounted s).host.outstanding = s.host.outstanding ∧ (hostFrameCounted s).host.params = s.host.params ∧
      (hostFrameCounted s).host.streaming = s.host.streaming := by
  simp [hostFrameCounted]

@[simp] theorem onCounts_parts (f : LaneCounts → LaneCounts) (s : State) :
    (onCounts f s).beams.hall = s.beams.hall ∧ (onCounts f s).beams.street = s.beams.street ∧
      (onCounts f s).beams.footfall = s.beams.footfall := by
  simp only [onCounts]
  (repeat' split) <;> simp

@[simp] theorem soundStart_parts (s : State) :
    (soundStart s).sounder.table = s.sounder.table ∧ (soundStart s).sounder.output = s.sounder.output := by
  simp only [soundStart, onSounder_sounder, entryStart, latchEntry]
  (repeat' split) <;> simp

@[simp] theorem soundStop_parts (s : State) :
    (soundStop s).sounder.table = s.sounder.table ∧ (soundStop s).sounder.output = s.sounder.output := by
  simp [soundStop]

@[simp] theorem putLane_parts (l : LaneSide) (st : LaneState) (s : State) :
    (putLane l st s).lanes.clear = s.lanes.clear := by
  cases l <;> simp [putLane]

@[simp] theorem setLane_parts (l : LaneSide) (st : LaneState) (s : State) :
    (setLane l st s).sounder.table = s.sounder.table ∧ (setLane l st s).sounder.output = s.sounder.output ∧
      (setLane l st s).lanes.clear = s.lanes.clear := by
  simp only [setLane]
  (repeat' split) <;> simp

@[simp] theorem rearm_parts (l : LaneSide) (s : State) :
    (rearm l s).sounder.table = s.sounder.table ∧ (rearm l s).sounder.output = s.sounder.output ∧
      (rearm l s).lanes.clear = s.lanes.clear := by
  simp only [rearm]
  (repeat' split) <;> simp

@[simp] theorem rearmBoth_parts (s : State) :
    (rearmBoth s).sounder.table = s.sounder.table ∧ (rearmBoth s).sounder.output = s.sounder.output ∧
      (rearmBoth s).lanes.clear = s.lanes.clear := by
  simp [rearmBoth]

@[simp] theorem enterSounding_parts (l : LaneSide) (cause : LaneCause) (s : State) :
    (enterSounding l cause s).host.receiver = s.host.receiver ∧
      (enterSounding l cause s).host.buffer = s.host.buffer ∧
      (enterSounding l cause s).host.outstanding = s.host.outstanding ∧
      (enterSounding l cause s).host.params = s.host.params ∧
      (enterSounding l cause s).host.streaming = s.host.streaming ∧
      (enterSounding l cause s).host.errors.lineErrors = s.host.errors.lineErrors ∧
      (enterSounding l cause s).host.errors.noticeCrc = s.host.errors.noticeCrc ∧
      (enterSounding l cause s).host.errors.evictions = s.host.errors.evictions ∧
      (enterSounding l cause s).host.errors.hostFrames = s.host.errors.hostFrames ∧
      (enterSounding l cause s).sounder.table = s.sounder.table ∧
      (enterSounding l cause s).sounder.output = s.sounder.output ∧
      (enterSounding l cause s).lanes.clear = s.lanes.clear := by
  simp [enterSounding]

@[simp] theorem hushLane_parts (l : LaneSide) (cause : LaneCause) (s : State) :
    (hushLane l cause s).host.receiver = s.host.receiver ∧ (hushLane l cause s).host.buffer = s.host.buffer ∧
      (hushLane l cause s).host.outstanding = s.host.outstanding ∧ (hushLane l cause s).host.params = s.host.params ∧
      (hushLane l cause s).host.streaming = s.host.streaming ∧
      (hushLane l cause s).host.errors.lineErrors = s.host.errors.lineErrors ∧
      (hushLane l cause s).host.errors.noticeCrc = s.host.errors.noticeCrc ∧
      (hushLane l cause s).host.errors.evictions = s.host.errors.evictions ∧
      (hushLane l cause s).host.errors.hostFrames = s.host.errors.hostFrames ∧
      (hushLane l cause s).sounder.table = s.sounder.table ∧ (hushLane l cause s).sounder.output = s.sounder.output ∧
      (hushLane l cause s).lanes.clear = s.lanes.clear := by
  simp only [hushLane]
  (repeat' split) <;> simp

@[simp] theorem hushBoth_parts (cause : LaneCause) (s : State) :
    (hushBoth cause s).host.receiver = s.host.receiver ∧ (hushBoth cause s).host.buffer = s.host.buffer ∧
      (hushBoth cause s).host.outstanding = s.host.outstanding ∧ (hushBoth cause s).host.params = s.host.params ∧
      (hushBoth cause s).host.streaming = s.host.streaming ∧
      (hushBoth cause s).host.errors.lineErrors = s.host.errors.lineErrors ∧
      (hushBoth cause s).host.errors.noticeCrc = s.host.errors.noticeCrc ∧
      (hushBoth cause s).host.errors.evictions = s.host.errors.evictions ∧
      (hushBoth cause s).host.errors.hostFrames = s.host.errors.hostFrames ∧
      (hushBoth cause s).sounder.table = s.sounder.table ∧ (hushBoth cause s).sounder.output = s.sounder.output ∧
      (hushBoth cause s).lanes.clear = s.lanes.clear := by
  simp [hushBoth]

@[simp] theorem soundTick_parts (l : LaneSide) (s : State) :
    (soundTick l s).host.receiver = s.host.receiver ∧ (soundTick l s).host.buffer = s.host.buffer ∧
      (soundTick l s).host.outstanding = s.host.outstanding ∧ (soundTick l s).host.params = s.host.params ∧
      (soundTick l s).host.streaming = s.host.streaming ∧
      (soundTick l s).host.errors.lineErrors = s.host.errors.lineErrors ∧
      (soundTick l s).host.errors.noticeCrc = s.host.errors.noticeCrc ∧
      (soundTick l s).host.errors.evictions = s.host.errors.evictions ∧
      (soundTick l s).host.errors.hostFrames = s.host.errors.hostFrames ∧
      (soundTick l s).sounder.table = s.sounder.table ∧ (soundTick l s).sounder.output = s.sounder.output ∧
      (soundTick l s).lanes.clear = s.lanes.clear := by
  simp only [soundTick]
  (repeat' split) <;> simp

@[simp] theorem armLanes_parts (s : State) :
    (armLanes s).sounder.table = s.sounder.table ∧ (armLanes s).sounder.output = s.sounder.output ∧
      (armLanes s).lanes.clear = s.lanes.clear := by
  simp [armLanes]

/-! ## Cadence, dormant timer, peer codes -/

@[simp] theorem briskEntry_parts (s : State) :
    (briskEntry s).access.requests = s.access.requests ∧ (briskEntry s).access.grant = s.access.grant ∧
      (briskEntry s).access.peerCalm = s.access.peerCalm ∧
      (briskEntry s).access.patternPosition = s.access.patternPosition := by
  simp only [briskEntry, onAccess_access]
  split <;> simp

@[simp] theorem stirAccess_parts (s : State) :
    (stirAccess s).access.requests = s.access.requests ∧ (stirAccess s).access.grant = s.access.grant ∧
      (stirAccess s).access.peerCalm = s.access.peerCalm ∧
      (stirAccess s).access.patternPosition = s.access.patternPosition := by
  simp [stirAccess]

@[simp] theorem dormantTimerZero_parts (s : State) :
    (dormantTimerZero s).supply.heldBy = s.supply.heldBy ∧ (dormantTimerZero s).supply.straps = s.supply.straps ∧
      (dormantTimerZero s).supply.cause = s.supply.cause := by
  simp [dormantTimerZero]

@[simp] theorem putPeer_parts (l : LaneSide) (r : PeerRecord) (s : State) :
    (putPeer l r s).line.state = s.line.state ∧ (putPeer l r s).line.timer = s.line.timer ∧
      (putPeer l r s).line.listenTime = s.line.listenTime ∧ (putPeer l r s).line.round = s.line.round ∧
      (putPeer l r s).line.timing = s.line.timing ∧ (putPeer l r s).line.dominantRun = s.line.dominantRun ∧
      (putPeer l r s).line.recessiveRun = s.line.recessiveRun ∧ (putPeer l r s).line.slots = s.line.slots ∧
      (putPeer l r s).line.requestSet = s.line.requestSet ∧ (putPeer l r s).line.clashMark = s.line.clashMark ∧
      (putPeer l r s).line.fieldClass = s.line.fieldClass ∧ (putPeer l r s).line.noticeClass = s.line.noticeClass ∧
      (putPeer l r s).line.slotWord = s.line.slotWord ∧ (putPeer l r s).line.startMark = s.line.startMark := by
  cases l <;> simp [putPeer]

@[simp] theorem takePeerCode_parts (l : LaneSide) (old new : PeerCode) (s : State) :
    (takePeerCode l old new s).host.receiver = s.host.receiver ∧
      (takePeerCode l old new s).host.buffer = s.host.buffer ∧
      (takePeerCode l old new s).host.outstanding = s.host.outstanding ∧
      (takePeerCode l old new s).host.params = s.host.params ∧
      (takePeerCode l old new s).host.streaming = s.host.streaming ∧
      (takePeerCode l old new s).host.errors.lineErrors = s.host.errors.lineErrors ∧
      (takePeerCode l old new s).host.errors.noticeCrc = s.host.errors.noticeCrc ∧
      (takePeerCode l old new s).host.errors.evictions = s.host.errors.evictions ∧
      (takePeerCode l old new s).host.errors.hostFrames = s.host.errors.hostFrames ∧
      (takePeerCode l old new s).sounder.table = s.sounder.table ∧
      (takePeerCode l old new s).sounder.output = s.sounder.output ∧
      (takePeerCode l old new s).lanes.clear = s.lanes.clear := by
  simp only [takePeerCode]
  (repeat' split) <;> simp

@[simp] theorem observe_parts (l : LaneSide) (seen : PeerCode) (s : State) :
    (observe l seen s).host.receiver = s.host.receiver ∧ (observe l seen s).host.buffer = s.host.buffer ∧
      (observe l seen s).host.outstanding = s.host.outstanding ∧ (observe l seen s).host.params = s.host.params ∧
      (observe l seen s).host.streaming = s.host.streaming ∧
      (observe l seen s).host.errors.lineErrors = s.host.errors.lineErrors ∧
      (observe l seen s).host.errors.noticeCrc = s.host.errors.noticeCrc ∧
      (observe l seen s).host.errors.evictions = s.host.errors.evictions ∧
      (observe l seen s).host.errors.hostFrames = s.host.errors.hostFrames ∧
      (observe l seen s).sounder.table = s.sounder.table ∧ (observe l seen s).sounder.output = s.sounder.output ∧
      (observe l seen s).lanes.clear = s.lanes.clear ∧ (observe l seen s).line.state = s.line.state ∧
      (observe l seen s).line.timer = s.line.timer ∧ (observe l seen s).line.listenTime = s.line.listenTime ∧
      (observe l seen s).line.round = s.line.round ∧ (observe l seen s).line.timing = s.line.timing ∧
      (observe l seen s).line.dominantRun = s.line.dominantRun ∧
      (observe l seen s).line.recessiveRun = s.line.recessiveRun ∧ (observe l seen s).line.slots = s.line.slots ∧
      (observe l seen s).line.requestSet = s.line.requestSet ∧ (observe l seen s).line.clashMark = s.line.clashMark ∧
      (observe l seen s).line.fieldClass = s.line.fieldClass ∧
      (observe l seen s).line.noticeClass = s.line.noticeClass ∧ (observe l seen s).line.slotWord = s.line.slotWord ∧
      (observe l seen s).line.startMark = s.line.startMark ∧ (observe l seen s).supply.heldBy = s.supply.heldBy ∧
      (observe l seen s).supply.straps = s.supply.straps ∧ (observe l seen s).supply.cause = s.supply.cause := by
  simp only [observe]
  (repeat' split) <;> simp

@[simp] theorem clearPeer_parts (l : LaneSide) (s : State) :
    (clearPeer l s).host.receiver = s.host.receiver ∧ (clearPeer l s).host.buffer = s.host.buffer ∧
      (clearPeer l s).host.outstanding = s.host.outstanding ∧ (clearPeer l s).host.params = s.host.params ∧
      (clearPeer l s).host.streaming = s.host.streaming ∧
      (clearPeer l s).host.errors.lineErrors = s.host.errors.lineErrors ∧
      (clearPeer l s).host.errors.noticeCrc = s.host.errors.noticeCrc ∧
      (clearPeer l s).host.errors.evictions = s.host.errors.evictions ∧
      (clearPeer l s).host.errors.hostFrames = s.host.errors.hostFrames ∧
      (clearPeer l s).sounder.table = s.sounder.table ∧ (clearPeer l s).sounder.output = s.sounder.output ∧
      (clearPeer l s).lanes.clear = s.lanes.clear ∧ (clearPeer l s).line.state = s.line.state ∧
      (clearPeer l s).line.timer = s.line.timer ∧ (clearPeer l s).line.listenTime = s.line.listenTime ∧
      (clearPeer l s).line.round = s.line.round ∧ (clearPeer l s).line.timing = s.line.timing ∧
      (clearPeer l s).line.dominantRun = s.line.dominantRun ∧
      (clearPeer l s).line.recessiveRun = s.line.recessiveRun ∧ (clearPeer l s).line.slots = s.line.slots ∧
      (clearPeer l s).line.requestSet = s.line.requestSet ∧ (clearPeer l s).line.clashMark = s.line.clashMark ∧
      (clearPeer l s).line.fieldClass = s.line.fieldClass ∧ (clearPeer l s).line.noticeClass = s.line.noticeClass ∧
      (clearPeer l s).line.slotWord = s.line.slotWord ∧ (clearPeer l s).line.startMark = s.line.startMark := by
  simp only [clearPeer]; split <;> simp

@[simp] theorem clearPeers_parts (s : State) :
    (clearPeers s).host.receiver = s.host.receiver ∧ (clearPeers s).host.buffer = s.host.buffer ∧
      (clearPeers s).host.outstanding = s.host.outstanding ∧ (clearPeers s).host.params = s.host.params ∧
      (clearPeers s).host.streaming = s.host.streaming ∧
      (clearPeers s).host.errors.lineErrors = s.host.errors.lineErrors ∧
      (clearPeers s).host.errors.noticeCrc = s.host.errors.noticeCrc ∧
      (clearPeers s).host.errors.evictions = s.host.errors.evictions ∧
      (clearPeers s).host.errors.hostFrames = s.host.errors.hostFrames ∧
      (clearPeers s).sounder.table = s.sounder.table ∧ (clearPeers s).sounder.output = s.sounder.output ∧
      (clearPeers s).lanes.clear = s.lanes.clear ∧ (clearPeers s).line.state = s.line.state ∧
      (clearPeers s).line.timer = s.line.timer ∧ (clearPeers s).line.listenTime = s.line.listenTime ∧
      (clearPeers s).line.round = s.line.round ∧ (clearPeers s).line.timing = s.line.timing ∧
      (clearPeers s).line.dominantRun = s.line.dominantRun ∧ (clearPeers s).line.recessiveRun = s.line.recessiveRun ∧
      (clearPeers s).line.slots = s.line.slots ∧ (clearPeers s).line.requestSet = s.line.requestSet ∧
      (clearPeers s).line.clashMark = s.line.clashMark ∧ (clearPeers s).line.fieldClass = s.line.fieldClass ∧
      (clearPeers s).line.noticeClass = s.line.noticeClass ∧ (clearPeers s).line.slotWord = s.line.slotWord ∧
      (clearPeers s).line.startMark = s.line.startMark := by
  simp [clearPeers]

/-! ## Notices and excuses -/

@[simp] theorem queueNotice_parts (body : NoticeBody) (s : State) :
    (queueNotice body s).host.receiver = s.host.receiver ∧ (queueNotice body s).host.buffer = s.host.buffer ∧
      (queueNotice body s).host.outstanding = s.host.outstanding ∧ (queueNotice body s).host.params = s.host.params ∧
      (queueNotice body s).host.streaming = s.host.streaming ∧
      (queueNotice body s).host.errors.lineErrors = s.host.errors.lineErrors ∧
      (queueNotice body s).host.errors.noticeCrc = s.host.errors.noticeCrc ∧
      (queueNotice body s).host.errors.evictions = s.host.errors.evictions ∧
      (queueNotice body s).host.errors.hostFrames = s.host.errors.hostFrames ∧
      (queueNotice body s).notices.inFlight = s.notices.inFlight := by
  simp only [queueNotice]; (repeat' split) <;> simp

@[simp] theorem dropStale_parts (s : State) :
    (dropStale s).notices.inFlight = s.notices.inFlight := by
  simp [dropStale]

/-! ## Tracks and verdicts -/

@[simp] theorem updTrack_parts (item : ItemCode) (f : Track → Track) (s : State) :
    (updTrack item f s).track.leftBroken = s.track.leftBroken ∧
      (updTrack item f s).track.rightBroken = s.track.rightBroken := by
  simp [updTrack]

@[simp] theorem countVerdict_parts (o : Outcome) (side : Side) (s : State) :
    (countVerdict o side s).beams.hall = s.beams.hall ∧ (countVerdict o side s).beams.street = s.beams.street ∧
      (countVerdict o side s).beams.footfall = s.beams.footfall ∧
      (countVerdict o side s).beams.counts.beamExits = s.beams.counts.beamExits ∧
      (countVerdict o side s).beams.counts.beamEntries = s.beams.counts.beamEntries := by
  cases o <;> simp only [countVerdict, onCounts] <;> (repeat' split) <;> simp

@[simp] theorem ownAlarm_parts (l : LaneSide) (s : State) :
    (ownAlarm l s).1.host.receiver = s.host.receiver ∧ (ownAlarm l s).1.host.buffer = s.host.buffer ∧
      (ownAlarm l s).1.host.outstanding = s.host.outstanding ∧ (ownAlarm l s).1.host.params = s.host.params ∧
      (ownAlarm l s).1.host.streaming = s.host.streaming ∧
      (ownAlarm l s).1.host.errors.lineErrors = s.host.errors.lineErrors ∧
      (ownAlarm l s).1.host.errors.noticeCrc = s.host.errors.noticeCrc ∧
      (ownAlarm l s).1.host.errors.evictions = s.host.errors.evictions ∧
      (ownAlarm l s).1.host.errors.hostFrames = s.host.errors.hostFrames ∧
      (ownAlarm l s).1.sounder.table = s.sounder.table ∧ (ownAlarm l s).1.sounder.output = s.sounder.output ∧
      (ownAlarm l s).1.lanes.clear = s.lanes.clear := by
  simp only [ownAlarm]
  (repeat' split) <;> simp

@[simp] theorem ownAlarms_parts (lanes : List LaneSide) (s : State) :
    (ownAlarms lanes s).1.host.receiver = s.host.receiver ∧ (ownAlarms lanes s).1.host.buffer = s.host.buffer ∧
      (ownAlarms lanes s).1.host.outstanding = s.host.outstanding ∧
      (ownAlarms lanes s).1.host.params = s.host.params ∧ (ownAlarms lanes s).1.host.streaming = s.host.streaming ∧
      (ownAlarms lanes s).1.host.errors.lineErrors = s.host.errors.lineErrors ∧
      (ownAlarms lanes s).1.host.errors.noticeCrc = s.host.errors.noticeCrc ∧
      (ownAlarms lanes s).1.host.errors.evictions = s.host.errors.evictions ∧
      (ownAlarms lanes s).1.host.errors.hostFrames = s.host.errors.hostFrames ∧
      (ownAlarms lanes s).1.sounder.table = s.sounder.table ∧
      (ownAlarms lanes s).1.sounder.output = s.sounder.output ∧ (ownAlarms lanes s).1.lanes.clear = s.lanes.clear := by
  induction lanes generalizing s with
  | nil => simp [ownAlarms]
  | cons l ls ih => simp [ownAlarms, ih]

@[simp] theorem verdictEffects_parts (o : Outcome) (item : ItemCode) (side : Side) (s : State) :
    (verdictEffects o item side s).1.host.receiver = s.host.receiver ∧
      (verdictEffects o item side s).1.host.buffer = s.host.buffer ∧
      (verdictEffects o item side s).1.host.outstanding = s.host.outstanding ∧
      (verdictEffects o item side s).1.host.params = s.host.params ∧
      (verdictEffects o item side s).1.host.streaming = s.host.streaming ∧
      (verdictEffects o item side s).1.host.errors.lineErrors = s.host.errors.lineErrors ∧
      (verdictEffects o item side s).1.host.errors.noticeCrc = s.host.errors.noticeCrc ∧
      (verdictEffects o item side s).1.host.errors.evictions = s.host.errors.evictions ∧
      (verdictEffects o item side s).1.host.errors.hostFrames = s.host.errors.hostFrames ∧
      (verdictEffects o item side s).1.sounder.table = s.sounder.table ∧
      (verdictEffects o item side s).1.sounder.output = s.sounder.output ∧
      (verdictEffects o item side s).1.lanes.clear = s.lanes.clear ∧
      (verdictEffects o item side s).1.beams.hall = s.beams.hall ∧
      (verdictEffects o item side s).1.beams.street = s.beams.street ∧
      (verdictEffects o item side s).1.beams.footfall = s.beams.footfall ∧
      (verdictEffects o item side s).1.beams.counts.beamExits = s.beams.counts.beamExits ∧
      (verdictEffects o item side s).1.beams.counts.beamEntries = s.beams.counts.beamEntries ∧
      (verdictEffects o item side s).1.track.leftBroken = s.track.leftBroken ∧
      (verdictEffects o item side s).1.track.rightBroken = s.track.rightBroken ∧
      (verdictEffects o item side s).1.notices.inFlight = s.notices.inFlight := by
  cases o <;> simp only [verdictEffects] <;> (try split) <;> simp

@[simp] theorem giveVerdict_parts (item : ItemCode) (direction : Direction) (s : State) :
    (giveVerdict item direction s).host.receiver = s.host.receiver ∧
      (giveVerdict item direction s).host.buffer = s.host.buffer ∧
      (giveVerdict item direction s).host.outstanding = s.host.outstanding ∧
      (giveVerdict item direction s).host.params = s.host.params ∧
      (giveVerdict item direction s).host.streaming = s.host.streaming ∧
      (giveVerdict item direction s).host.errors.lineErrors = s.host.errors.lineErrors ∧
      (giveVerdict item direction s).host.errors.noticeCrc = s.host.errors.noticeCrc ∧
      (giveVerdict item direction s).host.errors.evictions = s.host.errors.evictions ∧
      (giveVerdict item direction s).host.errors.hostFrames = s.host.errors.hostFrames ∧
      (giveVerdict item direction s).sounder.table = s.sounder.table ∧
      (giveVerdict item direction s).sounder.output = s.sounder.output ∧
      (giveVerdict item direction s).lanes.clear = s.lanes.clear ∧
      (giveVerdict item direction s).beams.hall = s.beams.hall ∧
      (giveVerdict item direction s).beams.street = s.beams.street ∧
      (giveVerdict item direction s).beams.footfall = s.beams.footfall ∧
      (giveVerdict item direction s).beams.counts.beamExits = s.beams.counts.beamExits ∧
      (giveVerdict item direction s).beams.counts.beamEntries = s.beams.counts.beamEntries ∧
      (giveVerdict item direction s).track.leftBroken = s.track.leftBroken ∧
      (giveVerdict item direction s).track.rightBroken = s.track.rightBroken ∧
      (giveVerdict item direction s).notices.inFlight = s.notices.inFlight := by
  simp only [giveVerdict]; (repeat' split) <;> simp

@[simp] theorem countTagEntry_parts (s : State) :
    (countTagEntry s).beams.hall = s.beams.hall ∧ (countTagEntry s).beams.street = s.beams.street ∧
      (countTagEntry s).beams.footfall = s.beams.footfall ∧
      (countTagEntry s).beams.counts.beamExits = s.beams.counts.beamExits ∧
      (countTagEntry s).beams.counts.beamEntries = s.beams.counts.beamEntries := by
  simp only [countTagEntry, onCounts]
  split <;> simp

@[simp] theorem evaluate_settleJudgement_parts (before : Track) (j : Judgement) (s : State) :
    (evaluate.settleJudgement before j s).host.receiver = s.host.receiver ∧
      (evaluate.settleJudgement before j s).host.buffer = s.host.buffer ∧
      (evaluate.settleJudgement before j s).host.outstanding = s.host.outstanding ∧
      (evaluate.settleJudgement before j s).host.params = s.host.params ∧
      (evaluate.settleJudgement before j s).host.streaming = s.host.streaming ∧
      (evaluate.settleJudgement before j s).host.errors.lineErrors = s.host.errors.lineErrors ∧
      (evaluate.settleJudgement before j s).host.errors.noticeCrc = s.host.errors.noticeCrc ∧
      (evaluate.settleJudgement before j s).host.errors.evictions = s.host.errors.evictions ∧
      (evaluate.settleJudgement before j s).host.errors.hostFrames = s.host.errors.hostFrames ∧
      (evaluate.settleJudgement before j s).sounder.table = s.sounder.table ∧
      (evaluate.settleJudgement before j s).sounder.output = s.sounder.output ∧
      (evaluate.settleJudgement before j s).lanes.clear = s.lanes.clear ∧
      (evaluate.settleJudgement before j s).beams.hall = s.beams.hall ∧
      (evaluate.settleJudgement before j s).beams.street = s.beams.street ∧
      (evaluate.settleJudgement before j s).beams.footfall = s.beams.footfall ∧
      (evaluate.settleJudgement before j s).beams.counts.beamExits = s.beams.counts.beamExits ∧
      (evaluate.settleJudgement before j s).beams.counts.beamEntries = s.beams.counts.beamEntries ∧
      (evaluate.settleJudgement before j s).track.leftBroken = s.track.leftBroken ∧
      (evaluate.settleJudgement before j s).track.rightBroken = s.track.rightBroken ∧
      (evaluate.settleJudgement before j s).notices.inFlight = s.notices.inFlight := by
  simp only [evaluate.settleJudgement]; (repeat' split) <;> simp

@[simp] theorem evaluate_parts (item : ItemCode) (s : State) :
    (evaluate item s).host.receiver = s.host.receiver ∧ (evaluate item s).host.buffer = s.host.buffer ∧
      (evaluate item s).host.outstanding = s.host.outstanding ∧ (evaluate item s).host.params = s.host.params ∧
      (evaluate item s).host.streaming = s.host.streaming ∧
      (evaluate item s).host.errors.lineErrors = s.host.errors.lineErrors ∧
      (evaluate item s).host.errors.noticeCrc = s.host.errors.noticeCrc ∧
      (evaluate item s).host.errors.evictions = s.host.errors.evictions ∧
      (evaluate item s).host.errors.hostFrames = s.host.errors.hostFrames ∧
      (evaluate item s).sounder.table = s.sounder.table ∧ (evaluate item s).sounder.output = s.sounder.output ∧
      (evaluate item s).lanes.clear = s.lanes.clear ∧ (evaluate item s).beams.hall = s.beams.hall ∧
      (evaluate item s).beams.street = s.beams.street ∧ (evaluate item s).beams.footfall = s.beams.footfall ∧
      (evaluate item s).beams.counts.beamExits = s.beams.counts.beamExits ∧
      (evaluate item s).beams.counts.beamEntries = s.beams.counts.beamEntries ∧
      (evaluate item s).track.leftBroken = s.track.leftBroken ∧
      (evaluate item s).track.rightBroken = s.track.rightBroken ∧
      (evaluate item s).notices.inFlight = s.notices.inFlight := by
  simp only [evaluate]
  (repeat' split) <;> simp

@[simp] theorem reportPassage_parts (item : ItemCode) (s : State) :
    (reportPassage item s).host.receiver = s.host.receiver ∧ (reportPassage item s).host.buffer = s.host.buffer ∧
      (reportPassage item s).host.outstanding = s.host.outstanding ∧
      (reportPassage item s).host.params = s.host.params ∧ (reportPassage item s).host.streaming = s.host.streaming ∧
      (reportPassage item s).host.errors.lineErrors = s.host.errors.lineErrors ∧
      (reportPassage item s).host.errors.noticeCrc = s.host.errors.noticeCrc ∧
      (reportPassage item s).host.errors.evictions = s.host.errors.evictions ∧
      (reportPassage item s).host.errors.hostFrames = s.host.errors.hostFrames := by
  simp only [reportPassage]
  (repeat' split) <;> simp

@[simp] theorem removeTrack_parts (item : ItemCode) (s : State) :
    (removeTrack item s).sounder.table = s.sounder.table ∧ (removeTrack item s).sounder.output = s.sounder.output ∧
      (removeTrack item s).lanes.clear = s.lanes.clear ∧ (removeTrack item s).track.leftBroken = s.track.leftBroken ∧
      (removeTrack item s).track.rightBroken = s.track.rightBroken := by
  simp [removeTrack]

@[simp] theorem expireTrack_parts (item : ItemCode) (s : State) :
    (expireTrack item s).host.receiver = s.host.receiver ∧ (expireTrack item s).host.buffer = s.host.buffer ∧
      (expireTrack item s).host.outstanding = s.host.outstanding ∧ (expireTrack item s).host.params = s.host.params ∧
      (expireTrack item s).host.streaming = s.host.streaming ∧
      (expireTrack item s).host.errors.lineErrors = s.host.errors.lineErrors ∧
      (expireTrack item s).host.errors.noticeCrc = s.host.errors.noticeCrc ∧
      (expireTrack item s).host.errors.evictions = s.host.errors.evictions ∧
      (expireTrack item s).host.errors.hostFrames = s.host.errors.hostFrames ∧
      (expireTrack item s).sounder.table = s.sounder.table ∧ (expireTrack item s).sounder.output = s.sounder.output ∧
      (expireTrack item s).lanes.clear = s.lanes.clear ∧ (expireTrack item s).beams.hall = s.beams.hall ∧
      (expireTrack item s).beams.street = s.beams.street ∧ (expireTrack item s).beams.footfall = s.beams.footfall ∧
      (expireTrack item s).beams.counts.beamExits = s.beams.counts.beamExits ∧
      (expireTrack item s).beams.counts.beamEntries = s.beams.counts.beamEntries ∧
      (expireTrack item s).track.leftBroken = s.track.leftBroken ∧
      (expireTrack item s).track.rightBroken = s.track.rightBroken ∧
      (expireTrack item s).notices.inFlight = s.notices.inFlight := by
  simp only [expireTrack]
  (repeat' split) <;> simp

@[simp] theorem expireTracks_parts (s : State) :
    (expireTracks s).host.receiver = s.host.receiver ∧ (expireTracks s).host.buffer = s.host.buffer ∧
      (expireTracks s).host.outstanding = s.host.outstanding ∧ (expireTracks s).host.params = s.host.params ∧
      (expireTracks s).host.streaming = s.host.streaming ∧
      (expireTracks s).host.errors.lineErrors = s.host.errors.lineErrors ∧
      (expireTracks s).host.errors.noticeCrc = s.host.errors.noticeCrc ∧
      (expireTracks s).host.errors.evictions = s.host.errors.evictions ∧
      (expireTracks s).host.errors.hostFrames = s.host.errors.hostFrames ∧
      (expireTracks s).sounder.table = s.sounder.table ∧ (expireTracks s).sounder.output = s.sounder.output ∧
      (expireTracks s).lanes.clear = s.lanes.clear ∧ (expireTracks s).beams.hall = s.beams.hall ∧
      (expireTracks s).beams.street = s.beams.street ∧ (expireTracks s).beams.footfall = s.beams.footfall ∧
      (expireTracks s).beams.counts.beamExits = s.beams.counts.beamExits ∧
      (expireTracks s).beams.counts.beamEntries = s.beams.counts.beamEntries ∧
      (expireTracks s).track.leftBroken = s.track.leftBroken ∧
      (expireTracks s).track.rightBroken = s.track.rightBroken ∧
      (expireTracks s).notices.inFlight = s.notices.inFlight := 
  ⟨foldl_keeps (fun s => s.host.receiver) _ (by simp) _ _,
      foldl_keeps (fun s => s.host.buffer) _ (by simp) _ _,
      foldl_keeps (fun s => s.host.outstanding) _ (by simp) _ _,
      foldl_keeps (fun s => s.host.params) _ (by simp) _ _,
      foldl_keeps (fun s => s.host.streaming) _ (by simp) _ _,
      foldl_keeps (fun s => s.host.errors.lineErrors) _ (by simp) _ _,
      foldl_keeps (fun s => s.host.errors.noticeCrc) _ (by simp) _ _,
      foldl_keeps (fun s => s.host.errors.evictions) _ (by simp) _ _,
      foldl_keeps (fun s => s.host.errors.hostFrames) _ (by simp) _ _,
      foldl_keeps (fun s => s.sounder.table) _ (by simp) _ _,
      foldl_keeps (fun s => s.sounder.output) _ (by simp) _ _,
      foldl_keeps (fun s => s.lanes.clear) _ (by simp) _ _,
      foldl_keeps (fun s => s.beams.hall) _ (by simp) _ _,
      foldl_keeps (fun s => s.beams.street) _ (by simp) _ _,
      foldl_keeps (fun s => s.beams.footfall) _ (by simp) _ _,
      foldl_keeps (fun s => s.beams.counts.beamExits) _ (by simp) _ _,
      foldl_keeps (fun s => s.beams.counts.beamEntries) _ (by simp) _ _,
      foldl_keeps (fun s => s.track.leftBroken) _ (by simp) _ _,
      foldl_keeps (fun s => s.track.rightBroken) _ (by simp) _ _,
      foldl_keeps (fun s => s.notices.inFlight) _ (by simp) _ _⟩

@[simp] theorem evict_parts (s : State) :
    (evict s).host.receiver = s.host.receiver ∧ (evict s).host.buffer = s.host.buffer ∧
      (evict s).host.outstanding = s.host.outstanding ∧ (evict s).host.params = s.host.params ∧
      (evict s).host.streaming = s.host.streaming ∧ (evict s).sounder.table = s.sounder.table ∧
      (evict s).sounder.output = s.sounder.output ∧ (evict s).lanes.clear = s.lanes.clear ∧
      (evict s).beams.hall = s.beams.hall ∧ (evict s).beams.street = s.beams.street ∧
      (evict s).beams.footfall = s.beams.footfall ∧ (evict s).beams.counts.beamExits = s.beams.counts.beamExits ∧
      (evict s).beams.counts.beamEntries = s.beams.counts.beamEntries ∧
      (evict s).track.leftBroken = s.track.leftBroken ∧ (evict s).track.rightBroken = s.track.rightBroken ∧
      (evict s).notices.inFlight = s.notices.inFlight := by
  simp only [evict]
  (repeat' split) <;> simp

@[simp] theorem createTrack_parts (item : ItemCode) (loan : LoanWord) (c : Coil) (v : Strength) (s : State) :
    (createTrack item loan c v s).track.leftBroken = s.track.leftBroken ∧
      (createTrack item loan c v s).track.rightBroken = s.track.rightBroken ∧
      (createTrack item loan c v s).access.requests = s.access.requests ∧
      (createTrack item loan c v s).access.grant = s.access.grant ∧
      (createTrack item loan c v s).access.peerCalm = s.access.peerCalm ∧
      (createTrack item loan c v s).access.patternPosition = s.access.patternPosition ∧
      (createTrack item loan c v s).supply.heldBy = s.supply.heldBy ∧
      (createTrack item loan c v s).supply.straps = s.supply.straps ∧
      (createTrack item loan c v s).supply.cause = s.supply.cause := by
  simp [createTrack]

@[simp] theorem takeRead_parts (item : ItemCode) (loan : LoanWord) (c : Coil) (v : Strength) (s : State) :
    (takeRead item loan c v s).host.receiver = s.host.receiver ∧
      (takeRead item loan c v s).host.buffer = s.host.buffer ∧
      (takeRead item loan c v s).host.outstanding = s.host.outstanding ∧
      (takeRead item loan c v s).host.params = s.host.params ∧
      (takeRead item loan c v s).host.streaming = s.host.streaming ∧
      (takeRead item loan c v s).sounder.table = s.sounder.table ∧
      (takeRead item loan c v s).sounder.output = s.sounder.output ∧
      (takeRead item loan c v s).lanes.clear = s.lanes.clear ∧ (takeRead item loan c v s).beams.hall = s.beams.hall ∧
      (takeRead item loan c v s).beams.street = s.beams.street ∧
      (takeRead item loan c v s).beams.footfall = s.beams.footfall ∧
      (takeRead item loan c v s).beams.counts.beamExits = s.beams.counts.beamExits ∧
      (takeRead item loan c v s).beams.counts.beamEntries = s.beams.counts.beamEntries ∧
      (takeRead item loan c v s).track.leftBroken = s.track.leftBroken ∧
      (takeRead item loan c v s).track.rightBroken = s.track.rightBroken ∧
      (takeRead item loan c v s).access.requests = s.access.requests ∧
      (takeRead item loan c v s).access.grant = s.access.grant ∧
      (takeRead item loan c v s).access.peerCalm = s.access.peerCalm ∧
      (takeRead item loan c v s).access.patternPosition = s.access.patternPosition ∧
      (takeRead item loan c v s).notices.inFlight = s.notices.inFlight ∧
      (takeRead item loan c v s).supply.heldBy = s.supply.heldBy ∧
      (takeRead item loan c v s).supply.straps = s.supply.straps ∧
      (takeRead item loan c v s).supply.cause = s.supply.cause := by
  simp only [takeRead]
  (repeat' split) <;> simp

@[simp] theorem ageCache_parts (s : State) :
    (ageCache s).track.leftBroken = s.track.leftBroken ∧ (ageCache s).track.rightBroken = s.track.rightBroken := by
  simp [ageCache]

@[simp] theorem takeSighting_parts (l : LaneSide) (e : Sighting) (s : State) :
    (takeSighting l e s).track.leftBroken = s.track.leftBroken ∧
      (takeSighting l e s).track.rightBroken = s.track.rightBroken := by
  simp only [takeSighting]
  (repeat' split) <;> (try simp only [onTrack_track]) <;> (repeat' split) <;> simp

@[simp] theorem takeVerdictEntry_parts (e : VerdictEntry) (s : State) :
    (takeVerdictEntry e s).track.leftBroken = s.track.leftBroken ∧
      (takeVerdictEntry e s).track.rightBroken = s.track.rightBroken := by
  simp only [takeVerdictEntry]; (repeat' split) <;> simp

/-! ## Field windows -/

@[simp] theorem driveCheck_parts (c : Coil) (sense : DriveSense) (s : State) :
    (driveCheck c sense s).1.host.receiver = s.host.receiver ∧ (driveCheck c sense s).1.host.buffer = s.host.buffer ∧
      (driveCheck c sense s).1.host.outstanding = s.host.outstanding ∧
      (driveCheck c sense s).1.host.params = s.host.params ∧
      (driveCheck c sense s).1.host.streaming = s.host.streaming ∧
      (driveCheck c sense s).1.host.errors.lineErrors = s.host.errors.lineErrors ∧
      (driveCheck c sense s).1.host.errors.noticeCrc = s.host.errors.noticeCrc ∧
      (driveCheck c sense s).1.host.errors.evictions = s.host.errors.evictions ∧
      (driveCheck c sense s).1.host.errors.hostFrames = s.host.errors.hostFrames := by
  simp only [driveCheck]
  (repeat' split) <;> simp

@[simp] theorem decayWhere_parts (c : Coil) (picked : Track → Bool) (s : State) :
    (decayWhere c picked s).track.leftBroken = s.track.leftBroken ∧
      (decayWhere c picked s).track.rightBroken = s.track.rightBroken := by
  simp [decayWhere]

@[simp] theorem quietRoundsZero_parts (s : State) :
    (quietRoundsZero s).access.requests = s.access.requests ∧ (quietRoundsZero s).access.grant = s.access.grant ∧
      (quietRoundsZero s).access.cadence = s.access.cadence ∧
      (quietRoundsZero s).access.peerCalm = s.access.peerCalm ∧
      (quietRoundsZero s).access.patternPosition = s.access.patternPosition := by
  simp [quietRoundsZero]

@[simp] theorem completeSweep_parts (c : Coil) (sweep : Sweep) (s : State) :
    (completeSweep c sweep s).track.leftBroken = s.track.leftBroken ∧
      (completeSweep c sweep s).track.rightBroken = s.track.rightBroken ∧
      (completeSweep c sweep s).access.requests = s.access.requests ∧
      (completeSweep c sweep s).access.grant = s.access.grant ∧
      (completeSweep c sweep s).access.cadence = s.access.cadence ∧
      (completeSweep c sweep s).access.peerCalm = s.access.peerCalm ∧
      (completeSweep c sweep s).access.patternPosition = s.access.patternPosition := by
  cases sweep <;> simp only [completeSweep] <;> (try split) <;> simp

@[simp] theorem buildSightings_parts (s : State) :
    (buildSightings s).host.receiver = s.host.receiver ∧ (buildSightings s).host.buffer = s.host.buffer ∧
      (buildSightings s).host.outstanding = s.host.outstanding ∧ (buildSightings s).host.params = s.host.params ∧
      (buildSightings s).host.streaming = s.host.streaming ∧
      (buildSightings s).host.errors.lineErrors = s.host.errors.lineErrors ∧
      (buildSightings s).host.errors.noticeCrc = s.host.errors.noticeCrc ∧
      (buildSightings s).host.errors.evictions = s.host.errors.evictions ∧
      (buildSightings s).host.errors.hostFrames = s.host.errors.hostFrames ∧
      (buildSightings s).notices.inFlight = s.notices.inFlight := 
  ⟨foldl_keeps (fun s => s.host.receiver) _ (by simp) _ _,
      foldl_keeps (fun s => s.host.buffer) _ (by simp) _ _,
      foldl_keeps (fun s => s.host.outstanding) _ (by simp) _ _,
      foldl_keeps (fun s => s.host.params) _ (by simp) _ _,
      foldl_keeps (fun s => s.host.streaming) _ (by simp) _ _,
      foldl_keeps (fun s => s.host.errors.lineErrors) _ (by simp) _ _,
      foldl_keeps (fun s => s.host.errors.noticeCrc) _ (by simp) _ _,
      foldl_keeps (fun s => s.host.errors.evictions) _ (by simp) _ _,
      foldl_keeps (fun s => s.host.errors.hostFrames) _ (by simp) _ _,
      foldl_keeps (fun s => s.notices.inFlight) _ (by simp) _ _⟩

@[simp] theorem clearMarks_parts (s : State) :
    (clearMarks s).track.leftBroken = s.track.leftBroken ∧ (clearMarks s).track.rightBroken = s.track.rightBroken := by
  simp [clearMarks]

@[simp] theorem windowEnd_parts (s : State) :
    (windowEnd s).host.receiver = s.host.receiver ∧ (windowEnd s).host.buffer = s.host.buffer ∧
      (windowEnd s).host.outstanding = s.host.outstanding ∧ (windowEnd s).host.params = s.host.params ∧
      (windowEnd s).host.streaming = s.host.streaming ∧
      (windowEnd s).host.errors.lineErrors = s.host.errors.lineErrors ∧
      (windowEnd s).host.errors.noticeCrc = s.host.errors.noticeCrc ∧
      (windowEnd s).host.errors.evictions = s.host.errors.evictions ∧
      (windowEnd s).host.errors.hostFrames = s.host.errors.hostFrames ∧
      (windowEnd s).sounder.table = s.sounder.table ∧ (windowEnd s).sounder.output = s.sounder.output ∧
      (windowEnd s).lanes.clear = s.lanes.clear ∧ (windowEnd s).beams.hall = s.beams.hall ∧
      (windowEnd s).beams.street = s.beams.street ∧ (windowEnd s).beams.footfall = s.beams.footfall ∧
      (windowEnd s).beams.counts.beamExits = s.beams.counts.beamExits ∧
      (windowEnd s).beams.counts.beamEntries = s.beams.counts.beamEntries ∧
      (windowEnd s).track.leftBroken = s.track.leftBroken ∧ (windowEnd s).track.rightBroken = s.track.rightBroken ∧
      (windowEnd s).notices.inFlight = s.notices.inFlight := by
  simp only [windowEnd, onField_track, onField_notices, onField_lanes, onField_sounder, onField_beams, onField_host, clearMarks_frame, clearMarks_parts,
    buildSightings_frame, buildSightings_parts]
  exact
    ⟨foldl_keeps (fun s => s.host.receiver) _ (by simp) _ _,
      foldl_keeps (fun s => s.host.buffer) _ (by simp) _ _,
      foldl_keeps (fun s => s.host.outstanding) _ (by simp) _ _,
      foldl_keeps (fun s => s.host.params) _ (by simp) _ _,
      foldl_keeps (fun s => s.host.streaming) _ (by simp) _ _,
      foldl_keeps (fun s => s.host.errors.lineErrors) _ (by simp) _ _,
      foldl_keeps (fun s => s.host.errors.noticeCrc) _ (by simp) _ _,
      foldl_keeps (fun s => s.host.errors.evictions) _ (by simp) _ _,
      foldl_keeps (fun s => s.host.errors.hostFrames) _ (by simp) _ _,
      foldl_keeps (fun s => s.sounder.table) _ (by simp) _ _,
      foldl_keeps (fun s => s.sounder.output) _ (by simp) _ _,
      foldl_keeps (fun s => s.lanes.clear) _ (by simp) _ _,
      foldl_keeps (fun s => s.beams.hall) _ (by simp) _ _,
      foldl_keeps (fun s => s.beams.street) _ (by simp) _ _,
      foldl_keeps (fun s => s.beams.footfall) _ (by simp) _ _,
      foldl_keeps (fun s => s.beams.counts.beamExits) _ (by simp) _ _,
      foldl_keeps (fun s => s.beams.counts.beamEntries) _ (by simp) _ _,
      foldl_keeps (fun s => s.track.leftBroken) _ (by simp) _ _,
      foldl_keeps (fun s => s.track.rightBroken) _ (by simp) _ _,
      foldl_keeps (fun s => s.notices.inFlight) _ (by simp) _ _⟩

@[simp] theorem secondHalf_parts (kind : WindowKind) (sense : DriveSense) (s : State) :
    (secondHalf kind sense s).host.receiver = s.host.receiver ∧
      (secondHalf kind sense s).host.buffer = s.host.buffer ∧
      (secondHalf kind sense s).host.outstanding = s.host.outstanding ∧
      (secondHalf kind sense s).host.params = s.host.params ∧
      (secondHalf kind sense s).host.streaming = s.host.streaming ∧
      (secondHalf kind sense s).host.errors.lineErrors = s.host.errors.lineErrors ∧
      (secondHalf kind sense s).host.errors.noticeCrc = s.host.errors.noticeCrc ∧
      (secondHalf kind sense s).host.errors.evictions = s.host.errors.evictions ∧
      (secondHalf kind sense s).host.errors.hostFrames = s.host.errors.hostFrames ∧
      (secondHalf kind sense s).sounder.table = s.sounder.table ∧
      (secondHalf kind sense s).sounder.output = s.sounder.output ∧
      (secondHalf kind sense s).lanes.clear = s.lanes.clear ∧ (secondHalf kind sense s).beams.hall = s.beams.hall ∧
      (secondHalf kind sense s).beams.street = s.beams.street ∧
      (secondHalf kind sense s).beams.footfall = s.beams.footfall ∧
      (secondHalf kind sense s).beams.counts.beamExits = s.beams.counts.beamExits ∧
      (secondHalf kind sense s).beams.counts.beamEntries = s.beams.counts.beamEntries ∧
      (secondHalf kind sense s).track.leftBroken = s.track.leftBroken ∧
      (secondHalf kind sense s).track.rightBroken = s.track.rightBroken ∧
      (secondHalf kind sense s).access.requests = s.access.requests ∧
      (secondHalf kind sense s).access.grant = s.access.grant ∧
      (secondHalf kind sense s).access.cadence = s.access.cadence ∧
      (secondHalf kind sense s).access.peerCalm = s.access.peerCalm ∧
      (secondHalf kind sense s).access.patternPosition = s.access.patternPosition ∧
      (secondHalf kind sense s).notices.inFlight = s.notices.inFlight := by
  simp only [secondHalf]; (repeat' split) <;> simp

@[simp] theorem firstHalf_parts (kind : WindowKind) (sense : DriveSense) (s : State) :
    (firstHalf kind sense s).host.receiver = s.host.receiver ∧ (firstHalf kind sense s).host.buffer = s.host.buffer ∧
      (firstHalf kind sense s).host.outstanding = s.host.outstanding ∧
      (firstHalf kind sense s).host.params = s.host.params ∧
      (firstHalf kind sense s).host.streaming = s.host.streaming ∧
      (firstHalf kind sense s).host.errors.lineErrors = s.host.errors.lineErrors ∧
      (firstHalf kind sense s).host.errors.noticeCrc = s.host.errors.noticeCrc ∧
      (firstHalf kind sense s).host.errors.evictions = s.host.errors.evictions ∧
      (firstHalf kind sense s).host.errors.hostFrames = s.host.errors.hostFrames ∧
      (firstHalf kind sense s).sounder.table = s.sounder.table ∧
      (firstHalf kind sense s).sounder.output = s.sounder.output ∧
      (firstHalf kind sense s).lanes.clear = s.lanes.clear ∧ (firstHalf kind sense s).beams.hall = s.beams.hall ∧
      (firstHalf kind sense s).beams.street = s.beams.street ∧
      (firstHalf kind sense s).beams.footfall = s.beams.footfall ∧
      (firstHalf kind sense s).beams.counts.beamExits = s.beams.counts.beamExits ∧
      (firstHalf kind sense s).beams.counts.beamEntries = s.beams.counts.beamEntries ∧
      (firstHalf kind sense s).track.leftBroken = s.track.leftBroken ∧
      (firstHalf kind sense s).track.rightBroken = s.track.rightBroken ∧
      (firstHalf kind sense s).access.requests = s.access.requests ∧
      (firstHalf kind sense s).access.grant = s.access.grant ∧
      (firstHalf kind sense s).access.cadence = s.access.cadence ∧
      (firstHalf kind sense s).access.peerCalm = s.access.peerCalm ∧
      (firstHalf kind sense s).access.patternPosition = s.access.patternPosition ∧
      (firstHalf kind sense s).notices.inFlight = s.notices.inFlight := by
  simp only [firstHalf]; (repeat' split) <;> simp

@[simp] theorem endHalf_parts (w : Window) (sense : DriveSense) (s : State) :
    (endHalf w sense s).host.receiver = s.host.receiver ∧ (endHalf w sense s).host.buffer = s.host.buffer ∧
      (endHalf w sense s).host.outstanding = s.host.outstanding ∧ (endHalf w sense s).host.params = s.host.params ∧
      (endHalf w sense s).host.streaming = s.host.streaming ∧
      (endHalf w sense s).host.errors.lineErrors = s.host.errors.lineErrors ∧
      (endHalf w sense s).host.errors.noticeCrc = s.host.errors.noticeCrc ∧
      (endHalf w sense s).host.errors.evictions = s.host.errors.evictions ∧
      (endHalf w sense s).host.errors.hostFrames = s.host.errors.hostFrames ∧
      (endHalf w sense s).sounder.table = s.sounder.table ∧ (endHalf w sense s).sounder.output = s.sounder.output ∧
      (endHalf w sense s).lanes.clear = s.lanes.clear ∧ (endHalf w sense s).beams.hall = s.beams.hall ∧
      (endHalf w sense s).beams.street = s.beams.street ∧ (endHalf w sense s).beams.footfall = s.beams.footfall ∧
      (endHalf w sense s).beams.counts.beamExits = s.beams.counts.beamExits ∧
      (endHalf w sense s).beams.counts.beamEntries = s.beams.counts.beamEntries ∧
      (endHalf w sense s).track.leftBroken = s.track.leftBroken ∧
      (endHalf w sense s).track.rightBroken = s.track.rightBroken ∧
      (endHalf w sense s).access.requests = s.access.requests ∧ (endHalf w sense s).access.grant = s.access.grant ∧
      (endHalf w sense s).access.cadence = s.access.cadence ∧
      (endHalf w sense s).access.peerCalm = s.access.peerCalm ∧
      (endHalf w sense s).access.patternPosition = s.access.patternPosition ∧
      (endHalf w sense s).notices.inFlight = s.notices.inFlight := by
  simp only [endHalf]; split <;> simp

@[simp] theorem cutWindow_parts (s : State) :
    (cutWindow s).host.receiver = s.host.receiver ∧ (cutWindow s).host.buffer = s.host.buffer ∧
      (cutWindow s).host.outstanding = s.host.outstanding ∧ (cutWindow s).host.params = s.host.params ∧
      (cutWindow s).host.streaming = s.host.streaming ∧
      (cutWindow s).host.errors.lineErrors = s.host.errors.lineErrors ∧
      (cutWindow s).host.errors.noticeCrc = s.host.errors.noticeCrc ∧
      (cutWindow s).host.errors.evictions = s.host.errors.evictions ∧
      (cutWindow s).host.errors.hostFrames = s.host.errors.hostFrames ∧
      (cutWindow s).sounder.table = s.sounder.table ∧ (cutWindow s).sounder.output = s.sounder.output ∧
      (cutWindow s).lanes.clear = s.lanes.clear ∧ (cutWindow s).beams.hall = s.beams.hall ∧
      (cutWindow s).beams.street = s.beams.street ∧ (cutWindow s).beams.footfall = s.beams.footfall ∧
      (cutWindow s).beams.counts.beamExits = s.beams.counts.beamExits ∧
      (cutWindow s).beams.counts.beamEntries = s.beams.counts.beamEntries ∧
      (cutWindow s).track.leftBroken = s.track.leftBroken ∧ (cutWindow s).track.rightBroken = s.track.rightBroken ∧
      (cutWindow s).access.requests = s.access.requests ∧ (cutWindow s).access.grant = s.access.grant ∧
      (cutWindow s).access.cadence = s.access.cadence ∧ (cutWindow s).access.peerCalm = s.access.peerCalm ∧
      (cutWindow s).access.patternPosition = s.access.patternPosition ∧
      (cutWindow s).notices.inFlight = s.notices.inFlight := by
  simp only [cutWindow]
  (repeat' split) <;> simp

@[simp] theorem startWindow_parts (sense : DriveSense) (s : State) :
    (startWindow sense s).host.receiver = s.host.receiver ∧ (startWindow sense s).host.buffer = s.host.buffer ∧
      (startWindow sense s).host.outstanding = s.host.outstanding ∧
      (startWindow sense s).host.params = s.host.params ∧ (startWindow sense s).host.streaming = s.host.streaming ∧
      (startWindow sense s).host.errors.lineErrors = s.host.errors.lineErrors ∧
      (startWindow sense s).host.errors.noticeCrc = s.host.errors.noticeCrc ∧
      (startWindow sense s).host.errors.evictions = s.host.errors.evictions ∧
      (startWindow sense s).host.errors.hostFrames = s.host.errors.hostFrames ∧
      (startWindow sense s).sounder.table = s.sounder.table ∧
      (startWindow sense s).sounder.output = s.sounder.output ∧ (startWindow sense s).lanes.clear = s.lanes.clear ∧
      (startWindow sense s).beams.hall = s.beams.hall ∧ (startWindow sense s).beams.street = s.beams.street ∧
      (startWindow sense s).beams.footfall = s.beams.footfall ∧
      (startWindow sense s).beams.counts.beamExits = s.beams.counts.beamExits ∧
      (startWindow sense s).beams.counts.beamEntries = s.beams.counts.beamEntries ∧
      (startWindow sense s).track.leftBroken = s.track.leftBroken ∧
      (startWindow sense s).track.rightBroken = s.track.rightBroken ∧
      (startWindow sense s).access.requests = s.access.requests ∧
      (startWindow sense s).access.grant = s.access.grant ∧ (startWindow sense s).access.cadence = s.access.cadence ∧
      (startWindow sense s).access.peerCalm = s.access.peerCalm ∧
      (startWindow sense s).notices.inFlight = s.notices.inFlight := by
  simp [startWindow]

@[simp] theorem passRead_parts (c : Coil) (seen : List ItemCode) (reply : Option Reply) (s : State) :
    (passRead c seen reply s).host.receiver = s.host.receiver ∧
      (passRead c seen reply s).host.buffer = s.host.buffer ∧
      (passRead c seen reply s).host.outstanding = s.host.outstanding ∧
      (passRead c seen reply s).host.params = s.host.params ∧
      (passRead c seen reply s).host.streaming = s.host.streaming ∧
      (passRead c seen reply s).sounder.table = s.sounder.table ∧
      (passRead c seen reply s).sounder.output = s.sounder.output ∧
      (passRead c seen reply s).lanes.clear = s.lanes.clear ∧ (passRead c seen reply s).beams.hall = s.beams.hall ∧
      (passRead c seen reply s).beams.street = s.beams.street ∧
      (passRead c seen reply s).beams.footfall = s.beams.footfall ∧
      (passRead c seen reply s).beams.counts.beamExits = s.beams.counts.beamExits ∧
      (passRead c seen reply s).beams.counts.beamEntries = s.beams.counts.beamEntries ∧
      (passRead c seen reply s).track.leftBroken = s.track.leftBroken ∧
      (passRead c seen reply s).track.rightBroken = s.track.rightBroken ∧
      (passRead c seen reply s).access.requests = s.access.requests ∧
      (passRead c seen reply s).access.grant = s.access.grant ∧
      (passRead c seen reply s).access.peerCalm = s.access.peerCalm ∧
      (passRead c seen reply s).access.patternPosition = s.access.patternPosition ∧
      (passRead c seen reply s).notices.inFlight = s.notices.inFlight ∧
      (passRead c seen reply s).supply.heldBy = s.supply.heldBy ∧
      (passRead c seen reply s).supply.straps = s.supply.straps ∧
      (passRead c seen reply s).supply.cause = s.supply.cause := by
  simp only [passRead]
  (repeat' split) <;> simp

@[simp] theorem progress_parts (half : Coil) (sweep : Sweep) (done : Bool) (sense : DriveSense) (s : State) :
    (progress half sweep done sense s).host.receiver = s.host.receiver ∧
      (progress half sweep done sense s).host.buffer = s.host.buffer ∧
      (progress half sweep done sense s).host.outstanding = s.host.outstanding ∧
      (progress half sweep done sense s).host.params = s.host.params ∧
      (progress half sweep done sense s).host.streaming = s.host.streaming ∧
      (progress half sweep done sense s).host.errors.lineErrors = s.host.errors.lineErrors ∧
      (progress half sweep done sense s).host.errors.noticeCrc = s.host.errors.noticeCrc ∧
      (progress half sweep done sense s).host.errors.evictions = s.host.errors.evictions ∧
      (progress half sweep done sense s).host.errors.hostFrames = s.host.errors.hostFrames ∧
      (progress half sweep done sense s).sounder.table = s.sounder.table ∧
      (progress half sweep done sense s).sounder.output = s.sounder.output ∧
      (progress half sweep done sense s).lanes.clear = s.lanes.clear ∧
      (progress half sweep done sense s).beams.hall = s.beams.hall ∧
      (progress half sweep done sense s).beams.street = s.beams.street ∧
      (progress half sweep done sense s).beams.footfall = s.beams.footfall ∧
      (progress half sweep done sense s).beams.counts.beamExits = s.beams.counts.beamExits ∧
      (progress half sweep done sense s).beams.counts.beamEntries = s.beams.counts.beamEntries ∧
      (progress half sweep done sense s).track.leftBroken = s.track.leftBroken ∧
      (progress half sweep done sense s).track.rightBroken = s.track.rightBroken ∧
      (progress half sweep done sense s).access.requests = s.access.requests ∧
      (progress half sweep done sense s).access.grant = s.access.grant ∧
      (progress half sweep done sense s).access.cadence = s.access.cadence ∧
      (progress half sweep done sense s).access.peerCalm = s.access.peerCalm ∧
      (progress half sweep done sense s).access.patternPosition = s.access.patternPosition ∧
      (progress half sweep done sense s).notices.inFlight = s.notices.inFlight := by
  simp only [progress]; split <;> simp

@[simp] theorem closeWindow_parts (reception : Reception) (sense : DriveSense) (s : State) :
    (closeWindow reception sense s).host.receiver = s.host.receiver ∧
      (closeWindow reception sense s).host.buffer = s.host.buffer ∧
      (closeWindow reception sense s).host.outstanding = s.host.outstanding ∧
      (closeWindow reception sense s).host.params = s.host.params ∧
      (closeWindow reception sense s).host.streaming = s.host.streaming ∧
      (closeWindow reception sense s).sounder.table = s.sounder.table ∧
      (closeWindow reception sense s).sounder.output = s.sounder.output ∧
      (closeWindow reception sense s).lanes.clear = s.lanes.clear ∧
      (closeWindow reception sense s).beams.hall = s.beams.hall ∧
      (closeWindow reception sense s).beams.street = s.beams.street ∧
      (closeWindow reception sense s).beams.footfall = s.beams.footfall ∧
      (closeWindow reception sense s).beams.counts.beamExits = s.beams.counts.beamExits ∧
      (closeWindow reception sense s).beams.counts.beamEntries = s.beams.counts.beamEntries ∧
      (closeWindow reception sense s).track.leftBroken = s.track.leftBroken ∧
      (closeWindow reception sense s).track.rightBroken = s.track.rightBroken ∧
      (closeWindow reception sense s).access.requests = s.access.requests ∧
      (closeWindow reception sense s).access.grant = s.access.grant ∧
      (closeWindow reception sense s).access.peerCalm = s.access.peerCalm ∧
      (closeWindow reception sense s).access.patternPosition = s.access.patternPosition ∧
      (closeWindow reception sense s).notices.inFlight = s.notices.inFlight ∧
      (closeWindow reception sense s).supply.heldBy = s.supply.heldBy ∧
      (closeWindow reception sense s).supply.straps = s.supply.straps ∧
      (closeWindow reception sense s).supply.cause = s.supply.cause := by
  simp only [closeWindow]
  (repeat' split) <;> simp

@[simp] theorem endCall_parts (reception : Reception) (sense : DriveSense) (s : State) :
    (endCall reception sense s).host.receiver = s.host.receiver ∧
      (endCall reception sense s).host.buffer = s.host.buffer ∧
      (endCall reception sense s).host.outstanding = s.host.outstanding ∧
      (endCall reception sense s).host.params = s.host.params ∧
      (endCall reception sense s).host.streaming = s.host.streaming ∧
      (endCall reception sense s).sounder.table = s.sounder.table ∧
      (endCall reception sense s).sounder.output = s.sounder.output ∧
      (endCall reception sense s).lanes.clear = s.lanes.clear ∧
      (endCall reception sense s).beams.hall = s.beams.hall ∧
      (endCall reception sense s).beams.street = s.beams.street ∧
      (endCall reception sense s).beams.footfall = s.beams.footfall ∧
      (endCall reception sense s).beams.counts.beamExits = s.beams.counts.beamExits ∧
      (endCall reception sense s).beams.counts.beamEntries = s.beams.counts.beamEntries ∧
      (endCall reception sense s).track.leftBroken = s.track.leftBroken ∧
      (endCall reception sense s).track.rightBroken = s.track.rightBroken ∧
      (endCall reception sense s).access.requests = s.access.requests ∧
      (endCall reception sense s).access.grant = s.access.grant ∧
      (endCall reception sense s).access.peerCalm = s.access.peerCalm ∧
      (endCall reception sense s).access.patternPosition = s.access.patternPosition ∧
      (endCall reception sense s).notices.inFlight = s.notices.inFlight ∧
      (endCall reception sense s).supply.heldBy = s.supply.heldBy ∧
      (endCall reception sense s).supply.straps = s.supply.straps ∧
      (endCall reception sense s).supply.cause = s.supply.cause := by
  simp only [endCall]
  (repeat' split) <;> simp

@[simp] theorem limitSweep_parts (sense : DriveSense) (s : State) :
    (limitSweep sense s).host.receiver = s.host.receiver ∧ (limitSweep sense s).host.buffer = s.host.buffer ∧
      (limitSweep sense s).host.outstanding = s.host.outstanding ∧ (limitSweep sense s).host.params = s.host.params ∧
      (limitSweep sense s).host.streaming = s.host.streaming ∧
      (limitSweep sense s).host.errors.lineErrors = s.host.errors.lineErrors ∧
      (limitSweep sense s).host.errors.noticeCrc = s.host.errors.noticeCrc ∧
      (limitSweep sense s).host.errors.evictions = s.host.errors.evictions ∧
      (limitSweep sense s).host.errors.hostFrames = s.host.errors.hostFrames ∧
      (limitSweep sense s).sounder.table = s.sounder.table ∧ (limitSweep sense s).sounder.output = s.sounder.output ∧
      (limitSweep sense s).lanes.clear = s.lanes.clear ∧ (limitSweep sense s).beams.hall = s.beams.hall ∧
      (limitSweep sense s).beams.street = s.beams.street ∧ (limitSweep sense s).beams.footfall = s.beams.footfall ∧
      (limitSweep sense s).beams.counts.beamExits = s.beams.counts.beamExits ∧
      (limitSweep sense s).beams.counts.beamEntries = s.beams.counts.beamEntries ∧
      (limitSweep sense s).track.leftBroken = s.track.leftBroken ∧
      (limitSweep sense s).track.rightBroken = s.track.rightBroken ∧
      (limitSweep sense s).access.requests = s.access.requests ∧ (limitSweep sense s).access.grant = s.access.grant ∧
      (limitSweep sense s).access.cadence = s.access.cadence ∧
      (limitSweep sense s).access.peerCalm = s.access.peerCalm ∧
      (limitSweep sense s).access.patternPosition = s.access.patternPosition ∧
      (limitSweep sense s).notices.inFlight = s.notices.inFlight := by
  simp only [limitSweep]
  (repeat' split) <;> simp

/-! ## Line, DORMANT entry and wake -/

@[simp] theorem releaseDriver_parts (s : State) :
    (releaseDriver s).line.state = s.line.state ∧ (releaseDriver s).line.timer = s.line.timer ∧
      (releaseDriver s).line.listenTime = s.line.listenTime ∧ (releaseDriver s).line.round = s.line.round ∧
      (releaseDriver s).line.timing = s.line.timing ∧ (releaseDriver s).line.dominantRun = s.line.dominantRun ∧
      (releaseDriver s).line.recessiveRun = s.line.recessiveRun ∧ (releaseDriver s).line.slots = s.line.slots ∧
      (releaseDriver s).line.requestSet = s.line.requestSet ∧ (releaseDriver s).line.peerLeft = s.line.peerLeft ∧
      (releaseDriver s).line.peerRight = s.line.peerRight ∧ (releaseDriver s).line.clashMark = s.line.clashMark ∧
      (releaseDriver s).line.fieldClass = s.line.fieldClass ∧
      (releaseDriver s).line.noticeClass = s.line.noticeClass ∧ (releaseDriver s).line.slotWord = s.line.slotWord := by
  simp [releaseDriver]

@[simp] theorem clearSlots_parts (s : State) :
    (clearSlots s).line.state = s.line.state ∧ (clearSlots s).line.timer = s.line.timer ∧
      (clearSlots s).line.listenTime = s.line.listenTime ∧ (clearSlots s).line.round = s.line.round ∧
      (clearSlots s).line.timing = s.line.timing ∧ (clearSlots s).line.dominantRun = s.line.dominantRun ∧
      (clearSlots s).line.recessiveRun = s.line.recessiveRun ∧ (clearSlots s).line.requestSet = s.line.requestSet ∧
      (clearSlots s).line.peerLeft = s.line.peerLeft ∧ (clearSlots s).line.peerRight = s.line.peerRight ∧
      (clearSlots s).line.clashMark = s.line.clashMark ∧ (clearSlots s).line.fieldClass = s.line.fieldClass ∧
      (clearSlots s).line.noticeClass = s.line.noticeClass ∧ (clearSlots s).line.slotWord = s.line.slotWord ∧
      (clearSlots s).line.startMark = s.line.startMark := by
  simp [clearSlots]

@[simp] theorem freshClasses_parts (s : State) :
    (freshClasses s).line.state = s.line.state ∧ (freshClasses s).line.timer = s.line.timer ∧
      (freshClasses s).line.listenTime = s.line.listenTime ∧ (freshClasses s).line.round = s.line.round ∧
      (freshClasses s).line.timing = s.line.timing ∧ (freshClasses s).line.dominantRun = s.line.dominantRun ∧
      (freshClasses s).line.recessiveRun = s.line.recessiveRun ∧ (freshClasses s).line.slots = s.line.slots ∧
      (freshClasses s).line.requestSet = s.line.requestSet ∧ (freshClasses s).line.peerLeft = s.line.peerLeft ∧
      (freshClasses s).line.peerRight = s.line.peerRight ∧ (freshClasses s).line.clashMark = s.line.clashMark ∧
      (freshClasses s).line.slotWord = s.line.slotWord ∧ (freshClasses s).line.startMark = s.line.startMark := by
  simp [freshClasses]

@[simp] theorem listenEntry_parts (s : State) :
    (listenEntry s).host.receiver = s.host.receiver ∧ (listenEntry s).host.buffer = s.host.buffer ∧
      (listenEntry s).host.outstanding = s.host.outstanding ∧ (listenEntry s).host.params = s.host.params ∧
      (listenEntry s).host.streaming = s.host.streaming ∧
      (listenEntry s).host.errors.lineErrors = s.host.errors.lineErrors ∧
      (listenEntry s).host.errors.noticeCrc = s.host.errors.noticeCrc ∧
      (listenEntry s).host.errors.evictions = s.host.errors.evictions ∧
      (listenEntry s).host.errors.hostFrames = s.host.errors.hostFrames ∧
      (listenEntry s).sounder.table = s.sounder.table ∧ (listenEntry s).sounder.output = s.sounder.output ∧
      (listenEntry s).lanes.clear = s.lanes.clear ∧ (listenEntry s).line.round = s.line.round ∧
      (listenEntry s).line.dominantRun = s.line.dominantRun ∧
      (listenEntry s).line.recessiveRun = s.line.recessiveRun ∧ (listenEntry s).line.clashMark = s.line.clashMark ∧
      (listenEntry s).line.slotWord = s.line.slotWord := by
  simp [listenEntry]

@[simp] theorem loneEntry_parts (timer : Nat) (s : State) :
    (loneEntry timer s).host.receiver = s.host.receiver ∧ (loneEntry timer s).host.buffer = s.host.buffer ∧
      (loneEntry timer s).host.outstanding = s.host.outstanding ∧ (loneEntry timer s).host.params = s.host.params ∧
      (loneEntry timer s).host.streaming = s.host.streaming ∧
      (loneEntry timer s).host.errors.lineErrors = s.host.errors.lineErrors ∧
      (loneEntry timer s).host.errors.noticeCrc = s.host.errors.noticeCrc ∧
      (loneEntry timer s).host.errors.evictions = s.host.errors.evictions ∧
      (loneEntry timer s).host.errors.hostFrames = s.host.errors.hostFrames ∧
      (loneEntry timer s).sounder.table = s.sounder.table ∧ (loneEntry timer s).sounder.output = s.sounder.output ∧
      (loneEntry timer s).lanes.clear = s.lanes.clear ∧ (loneEntry timer s).line.listenTime = s.line.listenTime ∧
      (loneEntry timer s).line.round = s.line.round ∧ (loneEntry timer s).line.timing = s.line.timing ∧
      (loneEntry timer s).line.clashMark = s.line.clashMark ∧
      (loneEntry timer s).line.fieldClass = s.line.fieldClass ∧
      (loneEntry timer s).line.noticeClass = s.line.noticeClass ∧
      (loneEntry timer s).line.slotWord = s.line.slotWord ∧ (loneEntry timer s).access.requests = s.access.requests ∧
      (loneEntry timer s).access.cadence = s.access.cadence ∧
      (loneEntry timer s).access.quietRounds = s.access.quietRounds ∧
      (loneEntry timer s).access.peerCalm = s.access.peerCalm ∧
      (loneEntry timer s).access.patternPosition = s.access.patternPosition := by
  simp [loneEntry]

@[simp] theorem clashEntry_parts (s : State) :
    (clashEntry s).host.receiver = s.host.receiver ∧ (clashEntry s).host.buffer = s.host.buffer ∧
      (clashEntry s).host.outstanding = s.host.outstanding ∧ (clashEntry s).host.params = s.host.params ∧
      (clashEntry s).host.streaming = s.host.streaming ∧
      (clashEntry s).host.errors.lineErrors = s.host.errors.lineErrors ∧
      (clashEntry s).host.errors.noticeCrc = s.host.errors.noticeCrc ∧
      (clashEntry s).host.errors.evictions = s.host.errors.evictions ∧
      (clashEntry s).host.errors.hostFrames = s.host.errors.hostFrames ∧ (clashEntry s).line.timer = s.line.timer ∧
      (clashEntry s).line.listenTime = s.line.listenTime ∧ (clashEntry s).line.round = s.line.round ∧
      (clashEntry s).line.dominantRun = s.line.dominantRun ∧ (clashEntry s).line.recessiveRun = s.line.recessiveRun ∧
      (clashEntry s).line.slots = s.line.slots ∧ (clashEntry s).line.requestSet = s.line.requestSet ∧
      (clashEntry s).line.peerLeft = s.line.peerLeft ∧ (clashEntry s).line.peerRight = s.line.peerRight ∧
      (clashEntry s).line.clashMark = s.line.clashMark ∧ (clashEntry s).line.fieldClass = s.line.fieldClass ∧
      (clashEntry s).line.noticeClass = s.line.noticeClass ∧ (clashEntry s).line.slotWord = s.line.slotWord := by
  simp [clashEntry]

@[simp] theorem silentEntry_parts (s : State) :
    (silentEntry s).host.receiver = s.host.receiver ∧ (silentEntry s).host.buffer = s.host.buffer ∧
      (silentEntry s).host.outstanding = s.host.outstanding ∧ (silentEntry s).host.params = s.host.params ∧
      (silentEntry s).host.streaming = s.host.streaming ∧
      (silentEntry s).host.errors.lineErrors = s.host.errors.lineErrors ∧
      (silentEntry s).host.errors.noticeCrc = s.host.errors.noticeCrc ∧
      (silentEntry s).host.errors.evictions = s.host.errors.evictions ∧
      (silentEntry s).host.errors.hostFrames = s.host.errors.hostFrames ∧
      (silentEntry s).sounder.table = s.sounder.table ∧ (silentEntry s).sounder.output = s.sounder.output ∧
      (silentEntry s).lanes.clear = s.lanes.clear ∧ (silentEntry s).line.timer = s.line.timer ∧
      (silentEntry s).line.listenTime = s.line.listenTime ∧ (silentEntry s).line.round = s.line.round ∧
      (silentEntry s).line.dominantRun = s.line.dominantRun ∧
      (silentEntry s).line.recessiveRun = s.line.recessiveRun ∧ (silentEntry s).line.slots = s.line.slots ∧
      (silentEntry s).line.clashMark = s.line.clashMark ∧ (silentEntry s).line.slotWord = s.line.slotWord := by
  simp [silentEntry]

@[simp] theorem freeEntry_parts (timer : Nat) (s : State) :
    (freeEntry timer s).host.receiver = s.host.receiver ∧ (freeEntry timer s).host.buffer = s.host.buffer ∧
      (freeEntry timer s).host.outstanding = s.host.outstanding ∧ (freeEntry timer s).host.params = s.host.params ∧
      (freeEntry timer s).host.streaming = s.host.streaming ∧
      (freeEntry timer s).host.errors.lineErrors = s.host.errors.lineErrors ∧
      (freeEntry timer s).host.errors.noticeCrc = s.host.errors.noticeCrc ∧
      (freeEntry timer s).host.errors.evictions = s.host.errors.evictions ∧
      (freeEntry timer s).host.errors.hostFrames = s.host.errors.hostFrames ∧
      (freeEntry timer s).sounder.table = s.sounder.table ∧ (freeEntry timer s).sounder.output = s.sounder.output ∧
      (freeEntry timer s).lanes.clear = s.lanes.clear ∧ (freeEntry timer s).line.state = s.line.state ∧
      (freeEntry timer s).line.listenTime = s.line.listenTime ∧ (freeEntry timer s).line.round = s.line.round ∧
      (freeEntry timer s).line.requestSet = s.line.requestSet ∧
      (freeEntry timer s).line.clashMark = s.line.clashMark ∧
      (freeEntry timer s).line.fieldClass = s.line.fieldClass ∧
      (freeEntry timer s).line.noticeClass = s.line.noticeClass ∧
      (freeEntry timer s).line.slotWord = s.line.slotWord ∧ (freeEntry timer s).line.startMark = s.line.startMark := by
  simp only [freeEntry]; split <;> simp

@[simp] theorem dormantEntry_parts (s : State) :
    (dormantEntry s).host.receiver = s.host.receiver ∧ (dormantEntry s).host.buffer = s.host.buffer ∧
      (dormantEntry s).host.outstanding = s.host.outstanding ∧ (dormantEntry s).host.params = s.host.params ∧
      (dormantEntry s).host.streaming = s.host.streaming ∧
      (dormantEntry s).host.errors.lineErrors = s.host.errors.lineErrors ∧
      (dormantEntry s).host.errors.noticeCrc = s.host.errors.noticeCrc ∧
      (dormantEntry s).host.errors.evictions = s.host.errors.evictions ∧
      (dormantEntry s).host.errors.hostFrames = s.host.errors.hostFrames ∧
      (dormantEntry s).sounder.table = s.sounder.table ∧ (dormantEntry s).sounder.output = s.sounder.output ∧
      (dormantEntry s).lanes.clear = s.lanes.clear ∧ (dormantEntry s).track.leftBroken = s.track.leftBroken ∧
      (dormantEntry s).track.rightBroken = s.track.rightBroken ∧ (dormantEntry s).line.timer = s.line.timer ∧
      (dormantEntry s).line.listenTime = s.line.listenTime ∧ (dormantEntry s).line.round = s.line.round ∧
      (dormantEntry s).line.dominantRun = s.line.dominantRun ∧
      (dormantEntry s).line.recessiveRun = s.line.recessiveRun ∧ (dormantEntry s).line.slots = s.line.slots ∧
      (dormantEntry s).line.clashMark = s.line.clashMark ∧ (dormantEntry s).line.slotWord = s.line.slotWord ∧
      (dormantEntry s).access.requests = s.access.requests ∧ (dormantEntry s).access.cadence = s.access.cadence ∧
      (dormantEntry s).access.quietRounds = s.access.quietRounds ∧
      (dormantEntry s).access.peerCalm = s.access.peerCalm ∧
      (dormantEntry s).access.patternPosition = s.access.patternPosition ∧
      (dormantEntry s).supply.heldBy = s.supply.heldBy ∧ (dormantEntry s).supply.straps = s.supply.straps ∧
      (dormantEntry s).supply.cause = s.supply.cause := by
  simp [dormantEntry]

@[simp] theorem wake_parts (cadence : Cadence) (s : State) :
    (wake cadence s).host.receiver = s.host.receiver ∧ (wake cadence s).host.buffer = s.host.buffer ∧
      (wake cadence s).host.outstanding = s.host.outstanding ∧ (wake cadence s).host.params = s.host.params ∧
      (wake cadence s).host.streaming = s.host.streaming ∧
      (wake cadence s).host.errors.lineErrors = s.host.errors.lineErrors ∧
      (wake cadence s).host.errors.noticeCrc = s.host.errors.noticeCrc ∧
      (wake cadence s).host.errors.evictions = s.host.errors.evictions ∧
      (wake cadence s).host.errors.hostFrames = s.host.errors.hostFrames ∧
      (wake cadence s).sounder.table = s.sounder.table ∧ (wake cadence s).sounder.output = s.sounder.output ∧
      (wake cadence s).lanes.clear = s.lanes.clear ∧ (wake cadence s).line.round = s.line.round ∧
      (wake cadence s).line.dominantRun = s.line.dominantRun ∧
      (wake cadence s).line.recessiveRun = s.line.recessiveRun ∧ (wake cadence s).line.clashMark = s.line.clashMark ∧
      (wake cadence s).line.slotWord = s.line.slotWord ∧ (wake cadence s).access.requests = s.access.requests ∧
      (wake cadence s).access.grant = s.access.grant ∧ (wake cadence s).access.peerCalm = s.access.peerCalm ∧
      (wake cadence s).access.patternPosition = s.access.patternPosition ∧
      (wake cadence s).supply.heldBy = s.supply.heldBy ∧ (wake cadence s).supply.straps = s.supply.straps ∧
      (wake cadence s).supply.cause = s.supply.cause := by
  simp only [wake]; split <;> simp

@[simp] theorem handCalm_parts (j : Fin 16) (value : Cadence) (s : State) :
    (handCalm j value s).host.receiver = s.host.receiver ∧ (handCalm j value s).host.buffer = s.host.buffer ∧
      (handCalm j value s).host.outstanding = s.host.outstanding ∧ (handCalm j value s).host.params = s.host.params ∧
      (handCalm j value s).host.streaming = s.host.streaming ∧
      (handCalm j value s).host.errors.lineErrors = s.host.errors.lineErrors ∧
      (handCalm j value s).host.errors.noticeCrc = s.host.errors.noticeCrc ∧
      (handCalm j value s).host.errors.evictions = s.host.errors.evictions ∧
      (handCalm j value s).host.errors.hostFrames = s.host.errors.hostFrames ∧
      (handCalm j value s).sounder.table = s.sounder.table ∧ (handCalm j value s).sounder.output = s.sounder.output ∧
      (handCalm j value s).lanes.clear = s.lanes.clear ∧ (handCalm j value s).line.round = s.line.round ∧
      (handCalm j value s).line.dominantRun = s.line.dominantRun ∧
      (handCalm j value s).line.recessiveRun = s.line.recessiveRun ∧
      (handCalm j value s).line.clashMark = s.line.clashMark ∧ (handCalm j value s).line.slotWord = s.line.slotWord ∧
      (handCalm j value s).access.requests = s.access.requests ∧ (handCalm j value s).access.grant = s.access.grant ∧
      (handCalm j value s).access.patternPosition = s.access.patternPosition ∧
      (handCalm j value s).supply.heldBy = s.supply.heldBy ∧ (handCalm j value s).supply.straps = s.supply.straps ∧
      (handCalm j value s).supply.cause = s.supply.cause := by
  simp only [handCalm]; (repeat' split) <;> simp

@[simp] theorem handCode_parts (j : Fin 16) (o : SlotOutcome) (s : State) :
    (handCode j o s).host.receiver = s.host.receiver ∧ (handCode j o s).host.buffer = s.host.buffer ∧
      (handCode j o s).host.outstanding = s.host.outstanding ∧ (handCode j o s).host.params = s.host.params ∧
      (handCode j o s).host.streaming = s.host.streaming ∧
      (handCode j o s).host.errors.lineErrors = s.host.errors.lineErrors ∧
      (handCode j o s).host.errors.noticeCrc = s.host.errors.noticeCrc ∧
      (handCode j o s).host.errors.evictions = s.host.errors.evictions ∧
      (handCode j o s).host.errors.hostFrames = s.host.errors.hostFrames ∧
      (handCode j o s).sounder.table = s.sounder.table ∧ (handCode j o s).sounder.output = s.sounder.output ∧
      (handCode j o s).lanes.clear = s.lanes.clear ∧ (handCode j o s).line.state = s.line.state ∧
      (handCode j o s).line.timer = s.line.timer ∧ (handCode j o s).line.listenTime = s.line.listenTime ∧
      (handCode j o s).line.round = s.line.round ∧ (handCode j o s).line.timing = s.line.timing ∧
      (handCode j o s).line.dominantRun = s.line.dominantRun ∧
      (handCode j o s).line.recessiveRun = s.line.recessiveRun ∧ (handCode j o s).line.slots = s.line.slots ∧
      (handCode j o s).line.requestSet = s.line.requestSet ∧ (handCode j o s).line.clashMark = s.line.clashMark ∧
      (handCode j o s).line.fieldClass = s.line.fieldClass ∧ (handCode j o s).line.noticeClass = s.line.noticeClass ∧
      (handCode j o s).line.slotWord = s.line.slotWord ∧ (handCode j o s).line.startMark = s.line.startMark ∧
      (handCode j o s).supply.heldBy = s.supply.heldBy ∧ (handCode j o s).supply.straps = s.supply.straps ∧
      (handCode j o s).supply.cause = s.supply.cause := by
  simp only [handCode]
  (repeat' split) <;> simp

@[simp] theorem handBeams_parts (j : Fin 16) (o : SlotOutcome) (s : State) :
    (handBeams j o s).track.rightBroken = s.track.rightBroken := by
  simp only [handBeams]
  (repeat' split) <;> simp

@[simp] theorem putSlot_parts (j : Fin 16) (o : SlotOutcome) (s : State) :
    (putSlot j o s).line.state = s.line.state ∧ (putSlot j o s).line.timer = s.line.timer ∧
      (putSlot j o s).line.listenTime = s.line.listenTime ∧ (putSlot j o s).line.round = s.line.round ∧
      (putSlot j o s).line.timing = s.line.timing ∧ (putSlot j o s).line.dominantRun = s.line.dominantRun ∧
      (putSlot j o s).line.recessiveRun = s.line.recessiveRun ∧ (putSlot j o s).line.requestSet = s.line.requestSet ∧
      (putSlot j o s).line.peerLeft = s.line.peerLeft ∧ (putSlot j o s).line.peerRight = s.line.peerRight ∧
      (putSlot j o s).line.clashMark = s.line.clashMark ∧ (putSlot j o s).line.fieldClass = s.line.fieldClass ∧
      (putSlot j o s).line.noticeClass = s.line.noticeClass ∧ (putSlot j o s).line.slotWord = s.line.slotWord ∧
      (putSlot j o s).line.startMark = s.line.startMark := by
  simp [putSlot]

@[simp] theorem slotEnd_parts (j : Fin 16) (o : SlotOutcome) (s : State) :
    (slotEnd j o s).host.receiver = s.host.receiver ∧ (slotEnd j o s).host.buffer = s.host.buffer ∧
      (slotEnd j o s).host.outstanding = s.host.outstanding ∧ (slotEnd j o s).host.params = s.host.params ∧
      (slotEnd j o s).host.streaming = s.host.streaming ∧
      (slotEnd j o s).host.errors.lineErrors = s.host.errors.lineErrors ∧
      (slotEnd j o s).host.errors.noticeCrc = s.host.errors.noticeCrc ∧
      (slotEnd j o s).host.errors.evictions = s.host.errors.evictions ∧
      (slotEnd j o s).host.errors.hostFrames = s.host.errors.hostFrames ∧
      (slotEnd j o s).sounder.table = s.sounder.table ∧ (slotEnd j o s).sounder.output = s.sounder.output ∧
      (slotEnd j o s).lanes.clear = s.lanes.clear ∧ (slotEnd j o s).track.rightBroken = s.track.rightBroken ∧
      (slotEnd j o s).line.round = s.line.round ∧ (slotEnd j o s).line.dominantRun = s.line.dominantRun ∧
      (slotEnd j o s).line.recessiveRun = s.line.recessiveRun ∧ (slotEnd j o s).line.clashMark = s.line.clashMark ∧
      (slotEnd j o s).line.slotWord = s.line.slotWord ∧ (slotEnd j o s).access.requests = s.access.requests ∧
      (slotEnd j o s).access.grant = s.access.grant ∧
      (slotEnd j o s).access.patternPosition = s.access.patternPosition ∧
      (slotEnd j o s).supply.heldBy = s.supply.heldBy ∧ (slotEnd j o s).supply.straps = s.supply.straps ∧
      (slotEnd j o s).supply.cause = s.supply.cause := by
  simp only [slotEnd]; (repeat' split) <;> simp

@[simp] theorem missSlot_parts (missed : Nat → Bool) (s : State) (j : Fin 16) :
    (missSlot missed s j).line.state = s.line.state ∧ (missSlot missed s j).line.timer = s.line.timer ∧
      (missSlot missed s j).line.listenTime = s.line.listenTime ∧ (missSlot missed s j).line.round = s.line.round ∧
      (missSlot missed s j).line.timing = s.line.timing ∧ (missSlot missed s j).line.dominantRun = s.line.dominantRun ∧
      (missSlot missed s j).line.recessiveRun = s.line.recessiveRun ∧
      (missSlot missed s j).line.requestSet = s.line.requestSet ∧
      (missSlot missed s j).line.peerLeft = s.line.peerLeft ∧ (missSlot missed s j).line.peerRight = s.line.peerRight ∧
      (missSlot missed s j).line.clashMark = s.line.clashMark ∧
      (missSlot missed s j).line.fieldClass = s.line.fieldClass ∧
      (missSlot missed s j).line.noticeClass = s.line.noticeClass ∧
      (missSlot missed s j).line.slotWord = s.line.slotWord ∧ (missSlot missed s j).line.startMark = s.line.startMark ∧
      (missSlot missed s j).access.requests = s.access.requests ∧ (missSlot missed s j).access.grant = s.access.grant ∧
      (missSlot missed s j).access.cadence = s.access.cadence ∧
      (missSlot missed s j).access.quietRounds = s.access.quietRounds ∧
      (missSlot missed s j).access.patternPosition = s.access.patternPosition := by
  simp only [missSlot, handCalm]; (repeat' split) <;> simp_all

/-! ## Round start -/

@[simp] theorem calmTest_parts (s : State) :
    (calmTest s).access.requests = s.access.requests ∧ (calmTest s).access.grant = s.access.grant ∧
      (calmTest s).access.peerCalm = s.access.peerCalm ∧
      (calmTest s).access.patternPosition = s.access.patternPosition := by
  simp only [calmTest]
  (repeat' split) <;> simp

@[simp] theorem quietAdvance_parts (s : State) :
    (quietAdvance s).access.requests = s.access.requests ∧ (quietAdvance s).access.grant = s.access.grant ∧
      (quietAdvance s).access.peerCalm = s.access.peerCalm ∧
      (quietAdvance s).access.patternPosition = s.access.patternPosition := by
  simp only [quietAdvance]
  (repeat' split) <;> simp

@[simp] theorem fieldClassUpdate_parts (how : RoundHow) (s : State) :
    (fieldClassUpdate how s).line.state = s.line.state ∧ (fieldClassUpdate how s).line.timer = s.line.timer ∧
      (fieldClassUpdate how s).line.listenTime = s.line.listenTime ∧
      (fieldClassUpdate how s).line.round = s.line.round ∧ (fieldClassUpdate how s).line.timing = s.line.timing ∧
      (fieldClassUpdate how s).line.dominantRun = s.line.dominantRun ∧
      (fieldClassUpdate how s).line.recessiveRun = s.line.recessiveRun ∧
      (fieldClassUpdate how s).line.slots = s.line.slots ∧
      (fieldClassUpdate how s).line.requestSet = s.line.requestSet ∧
      (fieldClassUpdate how s).line.peerLeft = s.line.peerLeft ∧
      (fieldClassUpdate how s).line.peerRight = s.line.peerRight ∧
      (fieldClassUpdate how s).line.clashMark = s.line.clashMark ∧
      (fieldClassUpdate how s).line.noticeClass = s.line.noticeClass ∧
      (fieldClassUpdate how s).line.slotWord = s.line.slotWord ∧
      (fieldClassUpdate how s).line.startMark = s.line.startMark := by
  simp only [fieldClassUpdate]
  (repeat' split) <;> simp

@[simp] theorem beamsAtRound_parts (s : State) :
    (beamsAtRound s).track.leftBroken = s.track.leftBroken := by
  simp only [beamsAtRound]
  (repeat' split) <;> simp

@[simp] theorem quietMinuteTurn_parts (s : State) :
    (quietMinuteTurn s).host.receiver = s.host.receiver ∧ (quietMinuteTurn s).host.buffer = s.host.buffer ∧
      (quietMinuteTurn s).host.outstanding = s.host.outstanding ∧ (quietMinuteTurn s).host.params = s.host.params ∧
      (quietMinuteTurn s).host.streaming = s.host.streaming ∧
      (quietMinuteTurn s).host.errors.lineErrors = s.host.errors.lineErrors ∧
      (quietMinuteTurn s).host.errors.noticeCrc = s.host.errors.noticeCrc ∧
      (quietMinuteTurn s).host.errors.evictions = s.host.errors.evictions ∧
      (quietMinuteTurn s).host.errors.hostFrames = s.host.errors.hostFrames ∧
      (quietMinuteTurn s).sounder.table = s.sounder.table ∧ (quietMinuteTurn s).sounder.output = s.sounder.output ∧
      (quietMinuteTurn s).lanes.clear = s.lanes.clear ∧ (quietMinuteTurn s).track.leftBroken = s.track.leftBroken ∧
      (quietMinuteTurn s).track.rightBroken = s.track.rightBroken ∧ (quietMinuteTurn s).line.timer = s.line.timer ∧
      (quietMinuteTurn s).line.listenTime = s.line.listenTime ∧ (quietMinuteTurn s).line.round = s.line.round ∧
      (quietMinuteTurn s).line.dominantRun = s.line.dominantRun ∧
      (quietMinuteTurn s).line.recessiveRun = s.line.recessiveRun ∧ (quietMinuteTurn s).line.slots = s.line.slots ∧
      (quietMinuteTurn s).line.clashMark = s.line.clashMark ∧ (quietMinuteTurn s).line.slotWord = s.line.slotWord ∧
      (quietMinuteTurn s).access.requests = s.access.requests ∧
      (quietMinuteTurn s).access.cadence = s.access.cadence ∧
      (quietMinuteTurn s).access.quietRounds = s.access.quietRounds ∧
      (quietMinuteTurn s).access.peerCalm = s.access.peerCalm ∧
      (quietMinuteTurn s).access.patternPosition = s.access.patternPosition ∧
      (quietMinuteTurn s).supply.heldBy = s.supply.heldBy ∧ (quietMinuteTurn s).supply.straps = s.supply.straps ∧
      (quietMinuteTurn s).supply.cause = s.supply.cause := by
  simp only [quietMinuteTurn]; (repeat' split) <;> simp

@[simp] theorem pendingTest_parts (s : State) :
    (pendingTest s).host.receiver = s.host.receiver ∧ (pendingTest s).host.buffer = s.host.buffer ∧
      (pendingTest s).host.outstanding = s.host.outstanding ∧ (pendingTest s).host.params = s.host.params ∧
      (pendingTest s).host.streaming = s.host.streaming ∧
      (pendingTest s).host.errors.lineErrors = s.host.errors.lineErrors ∧
      (pendingTest s).host.errors.noticeCrc = s.host.errors.noticeCrc ∧
      (pendingTest s).host.errors.evictions = s.host.errors.evictions ∧
      (pendingTest s).host.errors.hostFrames = s.host.errors.hostFrames ∧
      (pendingTest s).sounder.table = s.sounder.table ∧ (pendingTest s).sounder.output = s.sounder.output ∧
      (pendingTest s).lanes.clear = s.lanes.clear ∧ (pendingTest s).track.leftBroken = s.track.leftBroken ∧
      (pendingTest s).track.rightBroken = s.track.rightBroken ∧ (pendingTest s).line.timer = s.line.timer ∧
      (pendingTest s).line.listenTime = s.line.listenTime ∧ (pendingTest s).line.round = s.line.round ∧
      (pendingTest s).line.dominantRun = s.line.dominantRun ∧
      (pendingTest s).line.recessiveRun = s.line.recessiveRun ∧ (pendingTest s).line.slots = s.line.slots ∧
      (pendingTest s).line.clashMark = s.line.clashMark ∧ (pendingTest s).line.slotWord = s.line.slotWord ∧
      (pendingTest s).access.requests = s.access.requests ∧ (pendingTest s).access.cadence = s.access.cadence ∧
      (pendingTest s).access.quietRounds = s.access.quietRounds ∧
      (pendingTest s).access.peerCalm = s.access.peerCalm ∧
      (pendingTest s).access.patternPosition = s.access.patternPosition ∧
      (pendingTest s).supply.heldBy = s.supply.heldBy ∧ (pendingTest s).supply.straps = s.supply.straps ∧
      (pendingTest s).supply.cause = s.supply.cause := by
  simp only [pendingTest]
  (repeat' split) <;> simp

@[simp] theorem dormantAdvance_parts (s : State) :
    (dormantAdvance s).host.receiver = s.host.receiver ∧ (dormantAdvance s).host.buffer = s.host.buffer ∧
      (dormantAdvance s).host.outstanding = s.host.outstanding ∧ (dormantAdvance s).host.params = s.host.params ∧
      (dormantAdvance s).host.streaming = s.host.streaming ∧
      (dormantAdvance s).host.errors.lineErrors = s.host.errors.lineErrors ∧
      (dormantAdvance s).host.errors.noticeCrc = s.host.errors.noticeCrc ∧
      (dormantAdvance s).host.errors.evictions = s.host.errors.evictions ∧
      (dormantAdvance s).host.errors.hostFrames = s.host.errors.hostFrames ∧
      (dormantAdvance s).sounder.table = s.sounder.table ∧ (dormantAdvance s).sounder.output = s.sounder.output ∧
      (dormantAdvance s).lanes.clear = s.lanes.clear ∧ (dormantAdvance s).track.leftBroken = s.track.leftBroken ∧
      (dormantAdvance s).track.rightBroken = s.track.rightBroken ∧ (dormantAdvance s).line.timer = s.line.timer ∧
      (dormantAdvance s).line.listenTime = s.line.listenTime ∧ (dormantAdvance s).line.round = s.line.round ∧
      (dormantAdvance s).line.dominantRun = s.line.dominantRun ∧
      (dormantAdvance s).line.recessiveRun = s.line.recessiveRun ∧ (dormantAdvance s).line.slots = s.line.slots ∧
      (dormantAdvance s).line.clashMark = s.line.clashMark ∧ (dormantAdvance s).line.slotWord = s.line.slotWord ∧
      (dormantAdvance s).access.requests = s.access.requests ∧ (dormantAdvance s).access.cadence = s.access.cadence ∧
      (dormantAdvance s).access.quietRounds = s.access.quietRounds ∧
      (dormantAdvance s).access.peerCalm = s.access.peerCalm ∧
      (dormantAdvance s).access.patternPosition = s.access.patternPosition ∧
      (dormantAdvance s).supply.heldBy = s.supply.heldBy ∧ (dormantAdvance s).supply.straps = s.supply.straps ∧
      (dormantAdvance s).supply.cause = s.supply.cause := by
  simp only [dormantAdvance]
  (repeat' split) <;> simp

@[simp] theorem requestDecide_parts (s : State) :
    (requestDecide s).access.grant = s.access.grant ∧ (requestDecide s).access.cadence = s.access.cadence ∧
      (requestDecide s).access.quietRounds = s.access.quietRounds ∧
      (requestDecide s).access.peerCalm = s.access.peerCalm ∧
      (requestDecide s).access.patternPosition = s.access.patternPosition := by
  simp only [requestDecide]
  (repeat' split) <;> simp

@[simp] theorem formSlotWord_parts (s : State) :
    (formSlotWord s).line.state = s.line.state ∧ (formSlotWord s).line.timer = s.line.timer ∧
      (formSlotWord s).line.listenTime = s.line.listenTime ∧ (formSlotWord s).line.round = s.line.round ∧
      (formSlotWord s).line.timing = s.line.timing ∧ (formSlotWord s).line.dominantRun = s.line.dominantRun ∧
      (formSlotWord s).line.recessiveRun = s.line.recessiveRun ∧ (formSlotWord s).line.slots = s.line.slots ∧
      (formSlotWord s).line.requestSet = s.line.requestSet ∧ (formSlotWord s).line.peerLeft = s.line.peerLeft ∧
      (formSlotWord s).line.peerRight = s.line.peerRight ∧ (formSlotWord s).line.clashMark = s.line.clashMark ∧
      (formSlotWord s).line.fieldClass = s.line.fieldClass ∧ (formSlotWord s).line.noticeClass = s.line.noticeClass ∧
      (formSlotWord s).line.startMark = s.line.startMark := by
  simp [formSlotWord]

@[simp] theorem windowAtRound_parts (how : RoundHow) (sense : DriveSense) (s : State) :
    (windowAtRound how sense s).host.receiver = s.host.receiver ∧
      (windowAtRound how sense s).host.buffer = s.host.buffer ∧
      (windowAtRound how sense s).host.outstanding = s.host.outstanding ∧
      (windowAtRound how sense s).host.params = s.host.params ∧
      (windowAtRound how sense s).host.streaming = s.host.streaming ∧
      (windowAtRound how sense s).host.errors.lineErrors = s.host.errors.lineErrors ∧
      (windowAtRound how sense s).host.errors.noticeCrc = s.host.errors.noticeCrc ∧
      (windowAtRound how sense s).host.errors.evictions = s.host.errors.evictions ∧
      (windowAtRound how sense s).host.errors.hostFrames = s.host.errors.hostFrames ∧
      (windowAtRound how sense s).sounder.table = s.sounder.table ∧
      (windowAtRound how sense s).sounder.output = s.sounder.output ∧
      (windowAtRound how sense s).lanes.clear = s.lanes.clear ∧
      (windowAtRound how sense s).beams.hall = s.beams.hall ∧
      (windowAtRound how sense s).beams.street = s.beams.street ∧
      (windowAtRound how sense s).beams.footfall = s.beams.footfall ∧
      (windowAtRound how sense s).beams.counts.beamExits = s.beams.counts.beamExits ∧
      (windowAtRound how sense s).beams.counts.beamEntries = s.beams.counts.beamEntries ∧
      (windowAtRound how sense s).track.leftBroken = s.track.leftBroken ∧
      (windowAtRound how sense s).track.rightBroken = s.track.rightBroken ∧
      (windowAtRound how sense s).access.requests = s.access.requests ∧
      (windowAtRound how sense s).access.cadence = s.access.cadence ∧
      (windowAtRound how sense s).access.peerCalm = s.access.peerCalm ∧
      (windowAtRound how sense s).notices.inFlight = s.notices.inFlight := by
  simp only [windowAtRound]
  (repeat' split) <;> simp

@[simp] theorem roundTask_parts (how : RoundHow) (sense : DriveSense) (task : RoundTask) (s : State) :
    (roundTask how sense task s).host.receiver = s.host.receiver ∧
      (roundTask how sense task s).host.buffer = s.host.buffer ∧
      (roundTask how sense task s).host.outstanding = s.host.outstanding ∧
      (roundTask how sense task s).host.params = s.host.params ∧
      (roundTask how sense task s).host.streaming = s.host.streaming ∧
      (roundTask how sense task s).host.errors.lineErrors = s.host.errors.lineErrors ∧
      (roundTask how sense task s).host.errors.noticeCrc = s.host.errors.noticeCrc ∧
      (roundTask how sense task s).host.errors.evictions = s.host.errors.evictions ∧
      (roundTask how sense task s).host.errors.hostFrames = s.host.errors.hostFrames ∧
      (roundTask how sense task s).sounder.table = s.sounder.table ∧
      (roundTask how sense task s).sounder.output = s.sounder.output ∧
      (roundTask how sense task s).lanes.clear = s.lanes.clear ∧
      (roundTask how sense task s).beams.hall = s.beams.hall ∧
      (roundTask how sense task s).beams.street = s.beams.street ∧
      (roundTask how sense task s).beams.footfall = s.beams.footfall ∧
      (roundTask how sense task s).beams.counts.beamExits = s.beams.counts.beamExits ∧
      (roundTask how sense task s).beams.counts.beamEntries = s.beams.counts.beamEntries ∧
      (roundTask how sense task s).track.leftBroken = s.track.leftBroken ∧
      (roundTask how sense task s).line.timer = s.line.timer ∧
      (roundTask how sense task s).line.listenTime = s.line.listenTime ∧
      (roundTask how sense task s).line.round = s.line.round ∧
      (roundTask how sense task s).line.dominantRun = s.line.dominantRun ∧
      (roundTask how sense task s).line.recessiveRun = s.line.recessiveRun ∧
      (roundTask how sense task s).line.slots = s.line.slots ∧
      (roundTask how sense task s).line.clashMark = s.line.clashMark ∧
      (roundTask how sense task s).access.peerCalm = s.access.peerCalm ∧
      (roundTask how sense task s).supply.heldBy = s.supply.heldBy ∧
      (roundTask how sense task s).supply.straps = s.supply.straps ∧
      (roundTask how sense task s).supply.cause = s.supply.cause := by
  cases task <;> simp [roundTask]

/-! ## Notices received -/

@[simp] theorem takeSightings_parts (station : Fin 16) (entries : List Sighting) (s : State) :
    (takeSightings station entries s).track.leftBroken = s.track.leftBroken ∧
      (takeSightings station entries s).track.rightBroken = s.track.rightBroken := by
  unfold takeSightings
  (repeat' split) <;> first | simp | exact ⟨foldl_keeps (fun s => s.track.leftBroken) _ (by simp) _ _,
      foldl_keeps (fun s => s.track.rightBroken) _ (by simp) _ _⟩

@[simp] theorem takeVerdicts_parts (station : Fin 16) (entries : List VerdictEntry) (s : State) :
    (takeVerdicts station entries s).host.receiver = s.host.receiver ∧
      (takeVerdicts station entries s).host.buffer = s.host.buffer ∧
      (takeVerdicts station entries s).host.outstanding = s.host.outstanding ∧
      (takeVerdicts station entries s).host.params = s.host.params ∧
      (takeVerdicts station entries s).host.streaming = s.host.streaming ∧
      (takeVerdicts station entries s).host.errors.lineErrors = s.host.errors.lineErrors ∧
      (takeVerdicts station entries s).host.errors.noticeCrc = s.host.errors.noticeCrc ∧
      (takeVerdicts station entries s).host.errors.evictions = s.host.errors.evictions ∧
      (takeVerdicts station entries s).host.errors.hostFrames = s.host.errors.hostFrames ∧
      (takeVerdicts station entries s).track.leftBroken = s.track.leftBroken ∧
      (takeVerdicts station entries s).track.rightBroken = s.track.rightBroken := by
  simp only [takeVerdicts]
  split
  · exact
    ⟨(foldl_keeps (fun s => s.host.receiver) _ (by simp) _ _).trans (foldl_keeps (fun s => s.host.receiver) _ (by simp) _ _),
      (foldl_keeps (fun s => s.host.buffer) _ (by simp) _ _).trans (foldl_keeps (fun s => s.host.buffer) _ (by simp) _ _),
      (foldl_keeps (fun s => s.host.outstanding) _ (by simp) _ _).trans (foldl_keeps (fun s => s.host.outstanding) _ (by simp) _ _),
      (foldl_keeps (fun s => s.host.params) _ (by simp) _ _).trans (foldl_keeps (fun s => s.host.params) _ (by simp) _ _),
      (foldl_keeps (fun s => s.host.streaming) _ (by simp) _ _).trans (foldl_keeps (fun s => s.host.streaming) _ (by simp) _ _),
      (foldl_keeps (fun s => s.host.errors.lineErrors) _ (by simp) _ _).trans (foldl_keeps (fun s => s.host.errors.lineErrors) _ (by simp) _ _),
      (foldl_keeps (fun s => s.host.errors.noticeCrc) _ (by simp) _ _).trans (foldl_keeps (fun s => s.host.errors.noticeCrc) _ (by simp) _ _),
      (foldl_keeps (fun s => s.host.errors.evictions) _ (by simp) _ _).trans (foldl_keeps (fun s => s.host.errors.evictions) _ (by simp) _ _),
      (foldl_keeps (fun s => s.host.errors.hostFrames) _ (by simp) _ _).trans (foldl_keeps (fun s => s.host.errors.hostFrames) _ (by simp) _ _),
      (foldl_keeps (fun s => s.track.leftBroken) _ (by simp) _ _).trans (foldl_keeps (fun s => s.track.leftBroken) _ (by simp) _ _),
      (foldl_keeps (fun s => s.track.rightBroken) _ (by simp) _ _).trans (foldl_keeps (fun s => s.track.rightBroken) _ (by simp) _ _)⟩
  · exact
    ⟨foldl_keeps (fun s => s.host.receiver) _ (by simp) _ _,
      foldl_keeps (fun s => s.host.buffer) _ (by simp) _ _,
      foldl_keeps (fun s => s.host.outstanding) _ (by simp) _ _,
      foldl_keeps (fun s => s.host.params) _ (by simp) _ _,
      foldl_keeps (fun s => s.host.streaming) _ (by simp) _ _,
      foldl_keeps (fun s => s.host.errors.lineErrors) _ (by simp) _ _,
      foldl_keeps (fun s => s.host.errors.noticeCrc) _ (by simp) _ _,
      foldl_keeps (fun s => s.host.errors.evictions) _ (by simp) _ _,
      foldl_keeps (fun s => s.host.errors.hostFrames) _ (by simp) _ _,
      foldl_keeps (fun s => s.track.leftBroken) _ (by simp) _ _,
      foldl_keeps (fun s => s.track.rightBroken) _ (by simp) _ _⟩

@[simp] theorem dispatchNotice_parts (station : Fin 16) (body : NoticeBody) (s : State) :
    (dispatchNotice station body s).host.receiver = s.host.receiver ∧
      (dispatchNotice station body s).host.buffer = s.host.buffer ∧
      (dispatchNotice station body s).host.outstanding = s.host.outstanding ∧
      (dispatchNotice station body s).host.params = s.host.params ∧
      (dispatchNotice station body s).host.streaming = s.host.streaming ∧
      (dispatchNotice station body s).host.errors.lineErrors = s.host.errors.lineErrors ∧
      (dispatchNotice station body s).host.errors.noticeCrc = s.host.errors.noticeCrc ∧
      (dispatchNotice station body s).host.errors.evictions = s.host.errors.evictions ∧
      (dispatchNotice station body s).host.errors.hostFrames = s.host.errors.hostFrames ∧
      (dispatchNotice station body s).track.leftBroken = s.track.leftBroken ∧
      (dispatchNotice station body s).track.rightBroken = s.track.rightBroken := by
  cases body <;> simp only [dispatchNotice]
  · simp
  · simp
  · exact
    ⟨foldl_keeps (fun s => s.host.receiver) _ (by simp) _ _,
      foldl_keeps (fun s => s.host.buffer) _ (by simp) _ _,
      foldl_keeps (fun s => s.host.outstanding) _ (by simp) _ _,
      foldl_keeps (fun s => s.host.params) _ (by simp) _ _,
      foldl_keeps (fun s => s.host.streaming) _ (by simp) _ _,
      foldl_keeps (fun s => s.host.errors.lineErrors) _ (by simp) _ _,
      foldl_keeps (fun s => s.host.errors.noticeCrc) _ (by simp) _ _,
      foldl_keeps (fun s => s.host.errors.evictions) _ (by simp) _ _,
      foldl_keeps (fun s => s.host.errors.hostFrames) _ (by simp) _ _,
      foldl_keeps (fun s => s.track.leftBroken) _ (by simp) _ _,
      foldl_keeps (fun s => s.track.rightBroken) _ (by simp) _ _⟩

@[simp] theorem checkNotice_parts (data : List Bool) (s : State) :
    (checkNotice data s).host.receiver = s.host.receiver ∧ (checkNotice data s).host.buffer = s.host.buffer ∧
      (checkNotice data s).host.outstanding = s.host.outstanding ∧ (checkNotice data s).host.params = s.host.params ∧
      (checkNotice data s).host.streaming = s.host.streaming ∧
      (checkNotice data s).track.leftBroken = s.track.leftBroken ∧
      (checkNotice data s).track.rightBroken = s.track.rightBroken := by
  simp only [checkNotice]
  (repeat' split) <;> simp

@[simp] theorem receiveSlot_parts (data : List Bool) (s : State) :
    (receiveSlot data s).host.receiver = s.host.receiver ∧ (receiveSlot data s).host.buffer = s.host.buffer ∧
      (receiveSlot data s).host.outstanding = s.host.outstanding ∧ (receiveSlot data s).host.params = s.host.params ∧
      (receiveSlot data s).host.streaming = s.host.streaming ∧
      (receiveSlot data s).track.leftBroken = s.track.leftBroken ∧
      (receiveSlot data s).track.rightBroken = s.track.rightBroken := by
  simp only [receiveSlot]
  (repeat' split) <;> simp

@[simp] theorem classAfterSlot_parts (data : List Bool) (s : State) :
    (classAfterSlot data s).line.state = s.line.state ∧ (classAfterSlot data s).line.timer = s.line.timer ∧
      (classAfterSlot data s).line.listenTime = s.line.listenTime ∧
      (classAfterSlot data s).line.round = s.line.round ∧ (classAfterSlot data s).line.timing = s.line.timing ∧
      (classAfterSlot data s).line.dominantRun = s.line.dominantRun ∧
      (classAfterSlot data s).line.recessiveRun = s.line.recessiveRun ∧
      (classAfterSlot data s).line.slots = s.line.slots ∧
      (classAfterSlot data s).line.requestSet = s.line.requestSet ∧
      (classAfterSlot data s).line.peerLeft = s.line.peerLeft ∧
      (classAfterSlot data s).line.peerRight = s.line.peerRight ∧
      (classAfterSlot data s).line.clashMark = s.line.clashMark ∧
      (classAfterSlot data s).line.fieldClass = s.line.fieldClass ∧
      (classAfterSlot data s).line.slotWord = s.line.slotWord ∧
      (classAfterSlot data s).line.startMark = s.line.startMark := by
  simp only [classAfterSlot]
  (repeat' split) <;> simp

@[simp] theorem readBackNotice_parts (data : List Bool) (s : State) :
    (readBackNotice data s).host.receiver = s.host.receiver ∧ (readBackNotice data s).host.buffer = s.host.buffer ∧
      (readBackNotice data s).host.outstanding = s.host.outstanding ∧
      (readBackNotice data s).host.params = s.host.params ∧ (readBackNotice data s).host.streaming = s.host.streaming ∧
      (readBackNotice data s).host.errors.noticeCrc = s.host.errors.noticeCrc ∧
      (readBackNotice data s).notices.outbox = s.notices.outbox := by
  simp only [readBackNotice]
  (repeat' split) <;> simp [putFlight, lineError]

/-- A contest that was held is lost, failed or still being placed. -/
theorem contestOf_held (placed read : List Bool) : contestOf placed read ≠ .NONE := by
  simp only [contestOf]
  (repeat' split) <;> simp

/-- The readback of placed bits neither sets nor removes the in-flight mark (R106). -/
@[simp] theorem readBackNotice_marked (data : List Bool) (s : State) :
    (readBackNotice data s).notices.inFlight = .NONE ↔ s.notices.inFlight = .NONE := by
  simp only [readBackNotice, placedBits]
  split <;> rename_i h
  · rfl
  · have : s.notices.inFlight = .PLACING := by
      by_contra hp
      simp [hp] at h
    (repeat' split) <;> simp [putFlight, this]

@[simp] theorem slotEndSynced_parts (data : List Bool) (s : State) :
    (slotEndSynced data s).host.receiver = s.host.receiver ∧ (slotEndSynced data s).host.buffer = s.host.buffer ∧
      (slotEndSynced data s).host.outstanding = s.host.outstanding ∧
      (slotEndSynced data s).host.params = s.host.params ∧ (slotEndSynced data s).host.streaming = s.host.streaming ∧
      (slotEndSynced data s).track.leftBroken = s.track.leftBroken ∧
      (slotEndSynced data s).track.rightBroken = s.track.rightBroken := by
  simp only [slotEndSynced]
  (repeat' split) <;> simp

/-! ## Resets -/

@[simp] theorem engineReset_parts (s : State) :
    (engineReset s).host.receiver = s.host.receiver ∧ (engineReset s).host.buffer = s.host.buffer ∧
      (engineReset s).host.outstanding = s.host.outstanding ∧ (engineReset s).host.params = s.host.params ∧
      (engineReset s).host.streaming = s.host.streaming ∧
      (engineReset s).host.errors.lineErrors = s.host.errors.lineErrors ∧
      (engineReset s).host.errors.noticeCrc = s.host.errors.noticeCrc ∧
      (engineReset s).host.errors.evictions = s.host.errors.evictions ∧
      (engineReset s).host.errors.hostFrames = s.host.errors.hostFrames ∧
      (engineReset s).sounder.table = s.sounder.table ∧ (engineReset s).sounder.output = s.sounder.output ∧
      (engineReset s).line.state = s.line.state ∧ (engineReset s).line.timer = s.line.timer ∧
      (engineReset s).line.listenTime = s.line.listenTime ∧ (engineReset s).line.round = s.line.round ∧
      (engineReset s).line.timing = s.line.timing ∧ (engineReset s).line.dominantRun = s.line.dominantRun ∧
      (engineReset s).line.recessiveRun = s.line.recessiveRun ∧ (engineReset s).line.slots = s.line.slots ∧
      (engineReset s).line.requestSet = s.line.requestSet ∧ (engineReset s).line.clashMark = s.line.clashMark ∧
      (engineReset s).line.slotWord = s.line.slotWord ∧ (engineReset s).line.startMark = s.line.startMark ∧
      (engineReset s).access.requests = s.access.requests ∧ (engineReset s).access.peerCalm = s.access.peerCalm ∧
      (engineReset s).supply.heldBy = s.supply.heldBy ∧ (engineReset s).supply.straps = s.supply.straps ∧
      (engineReset s).supply.cause = s.supply.cause := by
  simp [engineReset]

end Sys2Proof.Machine
end

