-- ==== Sys2Proof/Laws/Ops.lean ====
section
/-! SUPPORT. For the shared operations of records, lanes, peer codes and line states: one equation each that says all it does. -/

namespace Sys2Proof.Machine

/-! ## Records (R181, R184) -/

/-- A record is made: the host port changes as `recorded` says, and nothing else does. -/
theorem makeRecord_eq (b : ReportBody) (s : State) : makeRecord b s = { s with host := recorded s.line.round b s.host } := by
  simp only [makeRecord, recorded]
  split
  · simp only [startDelivery, State.onHost]
    by_cases h1 : s.host.streaming <;> by_cases h2 : s.host.transmitter = .IDLE <;> by_cases h3 : s.host.outstanding = none <;>
      simp [h1, h2, h3, State.now]
  · rfl

/-! ## Lane machines (R143, R148, R151) -/

/-- A HUSHED machine that becomes ARMED says nothing to the sounder. -/
theorem setLane_armed (l : LaneSide) (s : State) (h : isHushed (laneState s l) = true) :
    setLane l .ARMED s = putLane l .ARMED s := by
  have same : anySounding (putLane l .ARMED s) = anySounding s := by
    cases l <;> simp [anySounding, sounds, putLane, laneState, hasLane, hasLeft, hasRight, State.station, State.onLanes,
      isSounding] at h ⊢
    · cases h2 : s.lanes.left <;> simp [h2, isHushed] at h ⊢
    · cases h2 : s.lanes.right <;> simp [h2, isHushed] at h ⊢
  simp [setLane, same]

/-- The re-arming test changes the machine of its lane and nothing else. -/
theorem rearm_eq (l : LaneSide) (s : State) :
    rearm l s =
      if hasLane s l && isHushed (laneState s l) && !occupied s l && !blocksRearm (peerRecord s l).confirmed then
        putLane l .ARMED s
      else s := by
  unfold rearm
  split
  · rename_i h
    simp only [Bool.and_eq_true] at h
    exact setLane_armed l s h.1.1.2
  · rfl

theorem putLane_same (l : LaneSide) (s : State) : putLane l (laneState s l) s = s := by
  cases l <;> rfl

/-- A peer code record is cleared: its machine is tested for re-arming, and nothing else happens (R143). -/
theorem clearPeer_eq (l : LaneSide) (s : State) : clearPeer l s = putLane l (afterPeerLost s l) (putPeer l noPeer s) := by
  have lane : laneState (putPeer l noPeer s) l = laneState s l := by cases l <;> rfl
  have occ : occupied (putPeer l noPeer s) l = occupied s l := by cases l <;> rfl
  have has : hasLane (putPeer l noPeer s) l = hasLane s l := by cases l <;> rfl
  have rec_ : (peerRecord (putPeer l noPeer s) l).confirmed = .ABSENT := by cases l <;> rfl
  have same : putLane l (laneState s l) (putPeer l noPeer s) = putPeer l noPeer s := by
    rw [← lane]; exact putLane_same _ _
  have e : putPeer l { confirmed := .ABSENT, lastSeen := none } s = putPeer l noPeer s := rfl
  simp only [clearPeer, e, afterPeerLost]
  by_cases h1 : hasLane s l = true <;> by_cases h2 : (peerRecord s l).confirmed = .ABSENT <;> simp only [h1, h2, same,
    not_true_eq_false, ne_eq, false_and, and_false, if_false, decide_true, decide_false, Bool.and_true, Bool.and_false,
    true_and, if_true, not_false_eq_true, Bool.false_eq_true]
  · simp only [takePeerCode, lane]
    cases h : laneState s l with
    | ARMED => simp [isHushed, ← h, same]
    | SOUNDING t => simp [isHushCode, isHushed, ← h, same]
    | HUSHED b =>
      simp only [rearm_eq, lane, occ, has, rec_, h1, h]
      cases h3 : occupied s l <;> simp [isHushed, blocksRearm, ← h, same]

/-- Both peer code records are cleared: the records and the re-arming tests, and nothing else (R143, R148). -/
theorem clearPeers_eq (s : State) :
    clearPeers s =
      { s with
        line := { s.line with peerLeft := noPeer, peerRight := noPeer }
        lanes := lanesAfterPeersLost s } := by
  unfold clearPeers
  rw [clearPeer_eq .left, clearPeer_eq .right]
  rfl

/-! ## Line states (R91, R98 to R101) -/

theorem listenEntry_eq (s : State) :
    listenEntry s =
      { s with
        line :=
          { s.line with
            state := .LISTEN, listenTime := 0, timer := 0, startMark := .idle, requestSet := none
            slots := Vector.replicate 16 .NOT_RECEIVED, peerLeft := noPeer, peerRight := noPeer
            fieldClass := .FRESH, noticeClass := .FRESH }
        notices := { s.notices with inFlight := .NONE }
        lanes := lanesAfterPeersLost s } := by
  simp only [listenEntry, clearPeers_eq]
  rfl

theorem loneEntry_eq (timer : Nat) (s : State) :
    loneEntry timer s =
      { s with
        line :=
          { s.line with
            state := .LONE, timer := timer, dominantRun := 200, recessiveRun := 0, startMark := .idle, requestSet := none
            slots := Vector.replicate 16 .NOT_RECEIVED, peerLeft := noPeer, peerRight := noPeer }
        access := { s.access with grant := false }
        notices := { s.notices with inFlight := .NONE }
        lanes := lanesAfterPeersLost s
        host := recorded s.line.round (.FAULT .line .STUCK) s.host } := by
  simp only [loneEntry, clearPeers_eq, makeRecord_eq]
  rfl

theorem freeEntry_eq (timer : Nat) (s : State) :
    freeEntry timer s =
      { s with
        line :=
          { s.line with
            timing := .FREE, timer := timer, dominantRun := 200, recessiveRun := 0
            slots := Vector.replicate 16 .NOT_RECEIVED
            peerLeft := if s.line.state = .CLASHED then noPeer else s.line.peerLeft
            peerRight := if s.line.state = .CLASHED then noPeer else s.line.peerRight }
        lanes := if s.line.state = .CLASHED then lanesAfterPeersLost s else s.lanes
        host := recorded s.line.round (.FAULT .line .STUCK) s.host } := by
  by_cases h : s.line.state = .CLASHED <;>
    simp only [freeEntry, clearPeers_eq, makeRecord_eq, clearSlots, State.onLine, h, if_true, if_false] <;> rfl

theorem clashEntry_eq (s : State) :
    clashEntry s =
      { s with
        field := { s.field with window := none }
        line := { s.line with state := .CLASHED, timing := .FOLLOWING, startMark := .idle }
        notices := { s.notices with inFlight := .NONE }
        host := recorded s.line.round (.FAULT .line .CLASH) s.host } := by
  simp only [clashEntry, makeRecord_eq]
  rfl

/-! ## DORMANT entry and wake (R192, R194) -/

/-- Dormancy entry leaves the machine as `rested` says. -/
theorem dormantEntry_eq (s : State) : dormantEntry s = rested s := by
  simp [dormantEntry, silentEntry, armLanes, clearPeers_eq, rested, abandonWindow, soundStop, dormantTimerZero, freshClasses,
    releaseDriver, State.onField, State.onAccess, State.onTrack, State.onNotices, State.onLanes, State.onSounder, State.onLine,
    State.onSupply, lanesAfterPeersLost, afterPeerLost, isHushed, laneState, silenced]
  by_cases h : s.line.state = .CLASHED <;> simp [h]

/-- Waking leaves the machine as `woken` says, unless the line is clashed. -/
theorem wake_eq (cadence : Cadence) (s : State) (h : s.line.state ≠ .CLASHED) : wake cadence s = woken cadence s := by
  simp only [wake, listenEntry_eq, dormantTimerZero, State.onSupply, State.onAccess, State.onLine, h, if_false]
  rfl

end Sys2Proof.Machine
end

