-- ==== Sys2Proof/Laws/Round.lean ====
section
/-! SUPPORT. The round start: every allowed order holds each part once, `missSlots_eq` says what the missed slots change, and
`roundStart_begun` what every round start leaves. -/

namespace Sys2Proof.Machine

/-! ## The order of the parts -/

theorem roundOrder_allowed (input : RoundInput) : orderAllowed (roundOrder input) = true := by
  unfold roundOrder
  split
  · assumption
  · decide

theorem roundOrder_perm (input : RoundInput) : (roundOrder input).Perm canonicalOrder := by
  have h := roundOrder_allowed input
  simp only [orderAllowed, Bool.and_eq_true, decide_eq_true_eq, List.all_eq_true, List.contains_iff_mem] at h
  have sub : canonicalOrder.Subperm (roundOrder input) := (by decide : canonicalOrder.Nodup).subperm h.1.2
  exact (sub.perm_of_length_le h.1.1.le).symm

/-- Every part stands once in the order of a round start. -/
theorem roundOrder_split (input : RoundInput) (t : RoundTask) :
    ∃ l r, roundOrder input = l ++ t :: r ∧ t ∉ l ∧ t ∉ r := by
  have perm := roundOrder_perm input
  have mem : t ∈ roundOrder input := perm.mem_iff.mpr (by cases t <;> decide)
  obtain ⟨l, r, h⟩ := List.append_of_mem mem
  have nodup : (roundOrder input).Nodup := perm.nodup_iff.mpr (by decide)
  rw [h, List.nodup_append] at nodup
  refine ⟨l, r, h, fun hl => nodup.2.2 t hl t (by simp) rfl, (List.nodup_cons.mp nodup.2.1).1⟩

/-- Where the rules fix that `a` comes before `b`, `a` stands among the parts before `b`. -/
theorem roundOrder_before {input : RoundInput} {a b : RoundTask} (fixed : (a, b) ∈ fixedOrders) {l r : List RoundTask}
    (h : roundOrder input = l ++ b :: r) (hl : b ∉ l) : a ∈ l := by
  have allowed := roundOrder_allowed input
  simp only [orderAllowed, Bool.and_eq_true, List.all_eq_true] at allowed
  have lt := of_decide_eq_true (allowed.2 _ fixed)
  simp only [h, List.idxOf_append, hl, if_false, List.idxOf_cons_self, Nat.zero_add] at lt
  by_contra ha
  simp only [ha, if_false] at lt
  omega

/-! ## Folds over the parts -/

/-- What every step over the members of a list keeps, the fold keeps. -/
theorem foldl_keeps_mem {α β : Type} (proj : State → β) (f : State → α → State) (l : List α)
    (kept : ∀ a ∈ l, ∀ s, proj (f s a) = proj s) (s : State) : proj (l.foldl f s) = proj s := by
  induction l generalizing s with
  | nil => rfl
  | cons a l ih =>
    rw [List.foldl_cons, ih fun b hb => kept b (List.mem_cons_of_mem a hb), kept a List.mem_cons_self]

/-- A property that every step over the members of a list keeps, the fold keeps. -/
theorem foldl_holds_mem {α : Type} (P : State → Prop) (f : State → α → State) (l : List α)
    (kept : ∀ a ∈ l, ∀ s, P s → P (f s a)) {s : State} (h : P s) : P (l.foldl f s) := by
  induction l generalizing s with
  | nil => exact h
  | cons a l ih =>
    exact ih (fun b hb => kept b (List.mem_cons_of_mem a hb)) (kept a List.mem_cons_self s h)

/-- The parts of a round start, one after another. -/
def roundTasks (how : RoundHow) (sense : DriveSense) (l : List RoundTask) (s : State) : State :=
  l.foldl (fun s t => roundTask how sense t s) s

/-- A block that only the part `t` can change holds after a round start what `t` left. -/
theorem roundTasks_only {β : Type} (proj : State → β) (how : RoundHow) (input : RoundInput) (t : RoundTask)
    (kept : ∀ u, u ≠ t → ∀ s, proj (roundTask how input.sense u s) = proj s) (s : State) :
    ∃ m, proj m = proj s ∧ proj (roundTasks how input.sense (roundOrder input) s) = proj (roundTask how input.sense t m) := by
  obtain ⟨l, r, h, hl, hr⟩ := roundOrder_split input t
  refine ⟨roundTasks how input.sense l s, ?_, ?_⟩
  · exact foldl_keeps_mem proj _ l (fun a ha s => kept a (fun e => hl (e ▸ ha)) s) s
  · rw [h]
    simp only [roundTasks, List.foldl_append, List.foldl_cons]
    exact foldl_keeps_mem proj _ r (fun a ha s => kept a (fun e => hr (e ▸ ha)) s) _

/-- What every part keeps, a round start's parts keep. -/
theorem roundTasks_keeps {β : Type} (proj : State → β) (how : RoundHow) (sense : DriveSense) (l : List RoundTask)
    (kept : ∀ u s, proj (roundTask how sense u s) = proj s) (s : State) :
    proj (roundTasks how sense l s) = proj s :=
  foldl_keeps_mem proj _ l (fun a _ s => kept a s) s

/-! ## The dormant timer among the parts -/

/-- With no DORMANT entry due, the dormant timer's part changes the dormant timer alone. -/
theorem dormantAdvance_noRest {s : State} (h : restNotDue s) :
    dormantAdvance s = s.onSupply (fun _ => (dormantAdvance s).supply) ∧
      (dormantAdvance s).supply.dormancy = s.supply.dormancy := by
  rcases h with h | ⟨hp, hr⟩
  · simp [dormantAdvance, h, State.onSupply]
  · have hle : ¬Config.minuteRounds ≤ s.supply.dormantRounds + 1 := by omega
    simp only [dormantAdvance, hle, if_false]
    split
    · split
      · simp [pendingTest, hp, State.onSupply]
      · simp [dormantTimerZero, State.onSupply]
    · simp [State.onSupply]

/-- What the parts keep when no DORMANT entry is due. -/
theorem roundTasks_noRest (P : State → Prop) (how : RoundHow) (sense : DriveSense) (l : List RoundTask) (nodup : l.Nodup)
    (kept : ∀ u ∈ l, u ≠ .dormantTimer → ∀ m, P m → P (roundTask how sense u m))
    (rest : ∀ m u, P m → P (m.onSupply fun _ => u)) {s : State} (due : RoundTask.dormantTimer ∈ l → restNotDue s)
    (h : P s) : P (roundTasks how sense l s) := by
  induction l generalizing s with
  | nil => exact h
  | cons u l ih =>
    rw [List.nodup_cons] at nodup
    have kept' : ∀ v ∈ l, v ≠ .dormantTimer → ∀ m, P m → P (roundTask how sense v m) :=
      fun v hv => kept v (List.mem_cons_of_mem u hv)
    by_cases hu : u = .dormantTimer
    · subst hu
      refine ih nodup.2 kept' (s := roundTask how sense .dormantTimer s) (fun hm => absurd hm nodup.1) ?_
      have := (dormantAdvance_noRest (due List.mem_cons_self)).1
      simp only [roundTask]
      rw [this]
      exact rest _ _ h
    · refine ih nodup.2 kept' (s := roundTask how sense u s) (fun hm => ?_) (kept u List.mem_cons_self hu s h)
      have hs : (roundTask how sense u s).supply = s.supply := by cases u <;> simp [roundTask] at hu ⊢
      simpa [restNotDue, hs] using due (List.mem_cons_of_mem u hm)

theorem roundOrder_nodup (input : RoundInput) : (roundOrder input).Nodup :=
  (roundOrder_perm input).nodup_iff.mpr (by decide)

/-! ## Slot times that do not pass -/

/-- A missed slot changes its entry in the slot table and the calm value held of it, and nothing else. -/
theorem missSlot_eq (missed : Nat → Bool) (s : State) (j : Fin 16) :
    missSlot missed s j =
      { s with
        line :=
          { s.line with
            slots :=
              if j.val ≠ s.supply.straps.station.val ∧ missed j.val then s.line.slots.set j .NOT_RECEIVED else s.line.slots }
        access :=
          { s.access with
            peerCalm := if withinReach s j ∧ missed j.val then s.access.peerCalm.set j .CALM else s.access.peerCalm } } := by
  have reach : withinReach s j = true → j.val ≠ s.supply.straps.station.val := by
    intro h; simp only [withinReach, Bool.and_eq_true, decide_eq_true_eq] at h; exact h.1.1
  have same : withinReach (putSlot j .NOT_RECEIVED s) j = withinReach s j := rfl
  unfold missSlot handCalm
  rw [same]
  by_cases own : j.val = s.supply.straps.station.val
  · have far : withinReach s j = false := by
      by_contra h; exact reach (by simpa using h) own
    simp [State.station, own, far]
  · by_cases m : missed j.val = true
    · by_cases w : withinReach s j = true <;> simp only [w, State.station, m] <;>
        simp [own, putSlot, State.onLine, State.onAccess]
    · simp [m]

/-- The slots of a list of distinct stations, missed one after another. -/
theorem missSlot_fold (missed : Nat → Bool) (l : List (Fin 16)) (nodup : l.Nodup) (s : State) :
    l.foldl (missSlot missed) s =
      { s with
        line := { s.line with slots := slotsMissed (fun n => missed n = true ∧ ∃ j ∈ l, j.val = n) s }
        access := { s.access with peerCalm := calmMissed (fun n => missed n = true ∧ ∃ j ∈ l, j.val = n) s } } := by
  induction l generalizing s with
  | nil =>
    have h1 : slotsMissed (fun n => missed n = true ∧ ∃ j ∈ ([] : List (Fin 16)), j.val = n) s = s.line.slots := by
      ext i hi; simp [slotsMissed]
    have h2 : calmMissed (fun n => missed n = true ∧ ∃ j ∈ ([] : List (Fin 16)), j.val = n) s = s.access.peerCalm := by
      ext i hi; simp [calmMissed]
    rw [h1, h2]; rfl
  | cons a l ih =>
    rw [List.nodup_cons] at nodup
    have reach (x : State) (y : State) (h : x.supply = y.supply) (j : Fin 16) : withinReach x j = withinReach y j := by
      unfold withinReach State.station; rw [h]
    have one := missSlot_eq missed s a
    have sup : (missSlot missed s a).supply = s.supply := by rw [one]
    rw [List.foldl_cons, ih nodup.2]
    have h1 : slotsMissed (fun n => missed n = true ∧ ∃ j ∈ l, j.val = n) (missSlot missed s a) =
        slotsMissed (fun n => missed n = true ∧ ∃ j ∈ a :: l, j.val = n) s := by
      ext i hi
      have slot : (missSlot missed s a).line.slots[i] =
          if a.val = i ∧ (a.val ≠ s.supply.straps.station.val ∧ missed a.val = true) then .NOT_RECEIVED
          else s.line.slots[i] := by
        rw [one]; simp only; split <;> simp_all [Vector.getElem_set]
      simp only [slotsMissed, Vector.getElem_ofFn, sup, Fin.getElem_fin, slot]
      by_cases e : a.val = i
      · subst e
        by_cases own : a.val = s.supply.straps.station.val <;> by_cases m : missed a.val = true <;> simp [own, m]
      · simp [e]
    have h2 : calmMissed (fun n => missed n = true ∧ ∃ j ∈ l, j.val = n) (missSlot missed s a) =
        calmMissed (fun n => missed n = true ∧ ∃ j ∈ a :: l, j.val = n) s := by
      ext i hi
      have calm : (missSlot missed s a).access.peerCalm[i] =
          if a.val = i ∧ (withinReach s a = true ∧ missed a.val = true) then .CALM else s.access.peerCalm[i] := by
        rw [one]; simp only; split <;> simp_all [Vector.getElem_set]
      simp only [calmMissed, Vector.getElem_ofFn, reach _ _ sup, Fin.getElem_fin, calm]
      by_cases e : a.val = i
      · subst e
        by_cases w : withinReach s a = true <;> by_cases m : missed a.val = true <;> simp [w, m]
      · simp [e]
    rw [h1, h2, one]

/-- The missed slots change the slot table and the calm values held, and nothing else (R93, R94). -/
theorem missSlots_eq (missed : Nat → Bool) (s : State) :
    missSlots missed s =
      { s with
        line := { s.line with slots := slotsMissed (fun n => missed n = true) s }
        access := { s.access with peerCalm := calmMissed (fun n => missed n = true) s } } := by
  rw [missSlots, missSlot_fold missed _ (List.nodup_finRange 16)]
  have h1 : slotsMissed (fun n => missed n = true ∧ ∃ j ∈ List.finRange 16, j.val = n) s =
      slotsMissed (fun n => missed n = true) s := by
    ext i hi
    simp [slotsMissed]
  have h2 : calmMissed (fun n => missed n = true ∧ ∃ j ∈ List.finRange 16, j.val = n) s =
      calmMissed (fun n => missed n = true) s := by
    ext i hi
    simp [calmMissed]
  rw [h1, h2]

theorem slotsMissed_congr {p q : Nat → Prop} [DecidablePred p] [DecidablePred q] {s t : State} (same : ∀ n, p n ↔ q n)
    (slots : s.line.slots = t.line.slots) (straps : s.supply.straps = t.supply.straps) : slotsMissed p s = slotsMissed q t := by
  simp only [slotsMissed, slots, straps, same]

theorem calmMissed_congr {p q : Nat → Prop} [DecidablePred p] [DecidablePred q] {s t : State} (same : ∀ n, p n ↔ q n)
    (calm : s.access.peerCalm = t.access.peerCalm) (straps : s.supply.straps = t.supply.straps) :
    calmMissed p s = calmMissed q t := by
  have reach (j : Fin 16) : withinReach s j = withinReach t j := by unfold withinReach State.station; rw [straps]
  simp only [calmMissed, reach, calm, same]

/-- The stations whose slots the timer has passed: the last bit time of slot `n` is 31 + 16 `n` (R195). -/
theorem slotLastBit_lt (n timer : Nat) : decide (slotLastBit n < timer) = true ↔ 31 + 16 * n < timer := by
  exact decide_eq_true_iff

/-! ## What every round start leaves -/

/-- The line unit without what a round start settles anew. -/
def lineRest (u : LineUnit) : LineUnit :=
  { u with fieldClass := .FRESH, slotWord := State.reset.line.slotWord }

theorem minuteAdvance_verdict (s : State) : (minuteAdvance s).verdict = minuteAdvanced s.verdict := by
  unfold minuteAdvance minuteAdvanced
  split
  · rw [if_neg (by omega)]; rfl
  · rw [if_pos (by omega)]; rfl

/-- What every round start leaves, said once. -/
theorem roundStart_begun (how : RoundHow) (timer : Nat) (input : RoundInput) (s : State) :
    RoundBegun timer s (roundStart how timer input s) := by
  obtain ⟨s1, hs1⟩ : ∃ s1, s1 = s.onLine fun u => { u with timer := timer, round := u.round + 1 } := ⟨_, rfl⟩
  obtain ⟨e, he⟩ : ∃ e, e = roundTasks how input.sense (roundOrder input) s1 := ⟨_, rfl⟩
  have start : roundStart how timer input s =
      missSlots (fun n => slotLastBit n < timer)
        ((e.onLine fun u => { u with requestSet := none }).onAccess fun a => { a with grant := false }) := by
    rw [he, hs1, roundStart]; rfl
  have keeps : ∀ {β : Type} (proj : State → β), (∀ u s, proj (roundTask how input.sense u s) = proj s) → proj e = proj s1 :=
    fun proj kept => he ▸ roundTasks_keeps proj how input.sense _ kept s1
  have only : ∀ {β : Type} (proj : State → β) (t : RoundTask),
      (∀ u, u ≠ t → ∀ s, proj (roundTask how input.sense u s) = proj s) →
      ∃ m, proj m = proj s1 ∧ proj e = proj (roundTask how input.sense t m) :=
    fun proj t kept => he ▸ roundTasks_only proj how input t kept s1
  have straps : e.supply.straps = s.supply.straps := by simp [keeps (fun s => s.supply.straps) (by simp), hs1]
  have slots : e.line.slots = s.line.slots := by simp [keeps (fun s => s.line.slots) (by simp), hs1]
  have calm : e.access.peerCalm = s.access.peerCalm := by simp [keeps (fun s => s.access.peerCalm) (by simp), hs1]
  obtain ⟨x, hx⟩ : ∃ x, x = (e.onLine fun u => { u with requestSet := none }).onAccess fun a => { a with grant := false } :=
    ⟨_, rfl⟩
  rw [start, ← hx, missSlots_eq, slotsMissed_congr (t := s) (slotLastBit_lt · timer) (by simp [hx, slots]) (by simp [hx, straps]),
    calmMissed_congr (t := s) (slotLastBit_lt · timer) (by simp [hx, calm]) (by simp [hx, straps]), hx]
  constructor
  case round => simp [keeps (fun s => s.line.round) (by simp), hs1]
  case timerSet => simp [keeps (fun s => s.line.timer) (by simp), hs1]
  case requestSet => simp
  case grant => simp
  case verdict =>
    obtain ⟨m, hm, h⟩ := only (fun s => s.verdict) .minuteCount (by intro u hu s; cases u <;> simp [roundTask] at hu ⊢)
    have hm' : m.verdict = s1.verdict := hm
    have h' : e.verdict = (minuteAdvance m).verdict := h
    simp [h', minuteAdvance_verdict, hm', hs1]
  case rightBroken =>
    obtain ⟨m, hm, h⟩ := only (fun s => (s.track.rightBroken, s.beams.hall, s.beams.street, s.supply.straps, s.line.round))
      .beamsBroken (by intro u hu s; cases u <;> simp [roundTask] at hu ⊢)
    simp only [Prod.mk.injEq] at hm h
    have hb : beamBroken m = beamBroken s := by simp [beamBroken, hasRight, hm, hs1]
    simp only [onAccess_track, onLine_track, h.1]
    simp only [roundTask, beamsAtRound, hb, State.now]
    split <;> simp [hm, hs1]
  case leftBroken => simp [keeps (fun s => s.track.leftBroken) (by simp), hs1]
  case slotWord =>
    obtain ⟨l, r, horder, hl, hr⟩ := roundOrder_split input .slotWord
    have quietBefore := roundOrder_before (a := .quietCount) (by decide) horder hl
    have quietAfter : RoundTask.quietCount ∉ r := by
      have nodup := roundOrder_nodup input
      rw [horder, List.nodup_append] at nodup
      exact fun hq => nodup.2.2 _ quietBefore _ (List.mem_cons_of_mem _ hq) rfl
    obtain ⟨m, hm⟩ : ∃ m, m = roundTasks how input.sense l s1 := ⟨_, rfl⟩
    have he' : e = roundTasks how input.sense r (formSlotWord m) := by
      rw [he, hm, horder]
      simp [roundTasks, List.foldl_append, roundTask]
    have after : (e.line.slotWord, e.access.cadence) = ((formSlotWord m).line.slotWord, (formSlotWord m).access.cadence) := by
      rw [he']
      refine foldl_keeps_mem (fun s => (s.line.slotWord, s.access.cadence)) _ r (fun a ha s => ?_) _
      have h1 : a ≠ .slotWord := fun h => hr (h ▸ ha)
      have h2 : a ≠ .quietCount := fun h => quietAfter (h ▸ ha)
      cases a <;> simp [roundTask] at h1 h2 ⊢
    have before : (m.beams.hall, m.beams.street, m.supply.straps) = (s1.beams.hall, s1.beams.street, s1.supply.straps) := by
      rw [hm]
      exact roundTasks_keeps (fun s => (s.beams.hall, s.beams.street, s.supply.straps)) how input.sense l (by simp) s1
    simp only [Prod.mk.injEq] at after before
    have hright : hasRight m = hasRight s := by simp [hasRight, before, hs1]
    simp only [onAccess_line, onLine_line, onAccess_access, onLine_access, after.1, after.2]
    simp [formSlotWord, slotWordNow, hright, before, hs1]
  case lineKept =>
    have := keeps (fun s => (s.line.slots, s.line.listenTime, s.line.dominantRun, s.line.recessiveRun, s.line.clashMark))
      (by simp)
    simp only [Prod.mk.injEq] at this
    simp [this, hs1]
  case lineWithoutRest =>
    intro due
    have due1 : restNotDue s1 := by simpa [restNotDue, hs1] using due
    have same : lineRest e.line = lineRest s1.line ∧ e.notices.inFlight = s1.notices.inFlight := by
      rw [he]
      refine roundTasks_noRest (fun m => lineRest m.line = lineRest s1.line ∧ m.notices.inFlight = s1.notices.inFlight) how
        input.sense _ (roundOrder_nodup input) (fun u _ hu m hm => ?_) (fun m u hm => by simpa using hm) (fun _ => due1)
        ⟨rfl, rfl⟩
      have : lineRest (roundTask how input.sense u m).line = lineRest m.line := by
        cases u <;> simp [roundTask] at hu ⊢
        · simp only [fieldClassUpdate]
          (repeat' split) <;> simp [lineRest]
        · simp [formSlotWord, lineRest]
      have : (roundTask how input.sense u m).notices.inFlight = m.notices.inFlight := by
        cases u <;> simp [roundTask] at hu ⊢
      simp_all
    have dormancy : e.supply.dormancy = s.supply.dormancy := by
      obtain ⟨m, hm, h⟩ := only (fun s => s.supply) .dormantTimer (by intro u hu s; cases u <;> simp [roundTask] at hu ⊢)
      have hm' : m.supply = s1.supply := hm
      have h' : e.supply = (dormantAdvance m).supply := h
      rw [h', (dormantAdvance_noRest (by simpa [restNotDue, hm'] using due1)).2, hm', hs1]
      rfl
    have word : e.line.slotWord.fieldClass = e.line.fieldClass := by
      obtain ⟨l, r, horder, hl, hr⟩ := roundOrder_split input .slotWord
      have classBefore := roundOrder_before (a := .fieldClass) (by decide) horder hl
      have nodup := roundOrder_nodup input
      rw [horder, List.nodup_append] at nodup
      have classAfter : RoundTask.fieldClass ∉ r := fun hq => nodup.2.2 _ classBefore _ (List.mem_cons_of_mem _ hq) rfl
      obtain ⟨m, hm⟩ : ∃ m, m = roundTasks how input.sense l s1 := ⟨_, rfl⟩
      have he' : e = roundTasks how input.sense r (formSlotWord m) := by
        rw [he, hm, horder]
        simp [roundTasks, List.foldl_append, roundTask]
      rw [he']
      refine roundTasks_noRest (fun m => m.line.slotWord.fieldClass = m.line.fieldClass) how input.sense r
        (List.nodup_cons.mp nodup.2.1).2 (fun u hu _ m hm => ?_) (fun m u hm => by simpa using hm) (fun hd => ?_) rfl
      · have h1 : u ≠ .slotWord := fun h => hr (h ▸ hu)
        have h2 : u ≠ .fieldClass := fun h => classAfter (h ▸ hu)
        cases u <;> simp [roundTask] at h1 h2 ⊢ <;> first | exact hm | skip
        all_goals simp_all
      · have hd' : RoundTask.dormantTimer ∉ l := fun hq => nodup.2.2 _ hq _ (List.mem_cons_of_mem _ hd) rfl
        have hsup : m.supply = s1.supply := by
          rw [hm]
          refine foldl_keeps_mem (fun s => s.supply) _ l (fun a ha s => ?_) s1
          have : a ≠ .dormantTimer := fun h => hd' (h ▸ ha)
          cases a <;> simp [roundTask] at this ⊢
        simpa [restNotDue, formSlotWord, hsup] using due1
    refine ⟨?_, by simpa using word, by simpa using dormancy, by simpa [hs1] using same.2⟩
    have h1 := same.1
    simp only [hs1, lineRest, LineUnit.mk.injEq] at h1
    simp only [onLine_line] at h1
    simp only [onAccess_line, onLine_line]
    rcases e with ⟨_, _, _, ⟨⟩, _⟩
    simp_all
  case calmValues => rfl
  case lanesKept => simp [keeps (fun s => s.lanes.clear) (by simp), hs1]
  case sounderKept =>
    have := keeps (fun s => (s.sounder.table, s.sounder.output)) (by simp)
    simp only [Prod.mk.injEq] at this
    simp [this, hs1]
  case beamsKept =>
    have := keeps (fun s => (s.beams.hall, s.beams.street, s.beams.footfall, s.beams.counts.beamExits,
      s.beams.counts.beamEntries)) (by simp)
    simp only [Prod.mk.injEq] at this
    simp [this, hs1]
  case hostKept =>
    have := keeps (fun s => (s.host.receiver, s.host.buffer, s.host.outstanding, s.host.params, s.host.streaming,
      s.host.errors.lineErrors, s.host.errors.noticeCrc, s.host.errors.evictions, s.host.errors.hostFrames)) (by simp)
    simp only [Prod.mk.injEq] at this
    simp [this, hs1]
  case supplyKept =>
    have := keeps (fun s => (s.supply.heldBy, s.supply.straps, s.supply.cause)) (by simp)
    simp only [Prod.mk.injEq] at this
    simp [this, hs1]
  case queueKept => simp [keeps (fun s => s.pending) (by simp), hs1]

end Sys2Proof.Machine
end

