-- ==== Sys2Proof/Laws/Window.lean ====
section
/-! SUPPORT. Field windows: the normal end of a half-sweep in the words of the statements, and the called list as R11 orders it. -/

namespace Sys2Proof.Machine

/-- The normal end of a half-sweep is `swept` with the decay of the tracks it names (R10, R16, R26). -/
theorem completeSweep_eq (c : Coil) (sweep : Sweep) (s : State) :
    completeSweep c sweep s =
      decayWhere c
        (fun t =>
          match sweep with
          | .search r => !r.read.contains t.item
          | .follow r => r.called.contains t.item && !r.answered.contains t.item)
        (swept sweep s) := by
  cases sweep with
  | follow r => rfl
  | search r =>
    by_cases h : r.closed ≠ 0 ∧ r.empty = r.closed <;>
      simp [completeSweep, swept, h, decayWhere, quietRoundsZero, figureAfter, clampInt, State.onField, State.onTrack,
        State.onAccess, State.params] <;>
      omega

theorem insertByAge_perm (now : Round) (t : Track) (l : List Track) : (insertByAge now t l).Perm (t :: l) := by
  induction l with
  | nil => exact .refl _
  | cons x xs ih =>
    simp only [insertByAge]
    split
    · exact (ih.cons x).trans (.swap t x xs)
    · exact .refl _

/-- Insertion keeps the order by age, and places a track after every track of its own age. -/
theorem insertByAge_ordered (now : Round) (t : Track) (l : List Track)
    (h : l.Pairwise fun x y => roundsSince now y.lastRead ≤ roundsSince now x.lastRead) :
    (insertByAge now t l).Pairwise (fun x y => roundsSince now y.lastRead ≤ roundsSince now x.lastRead) ∧
      ∀ n, ((insertByAge now t l).filter fun x => roundsSince now x.lastRead = n) =
        (l ++ [t]).filter fun x => roundsSince now x.lastRead = n := by
  induction l with
  | nil => exact ⟨by simp [insertByAge], fun n => rfl⟩
  | cons x xs ih =>
    obtain ⟨hx, hxs⟩ := List.pairwise_cons.mp h
    obtain ⟨ih1, ih2⟩ := ih hxs
    simp only [insertByAge]
    by_cases le : roundsSince now t.lastRead ≤ roundsSince now x.lastRead
    · simp only [if_pos le]
      refine ⟨List.pairwise_cons.mpr ⟨fun y hy => ?_, ih1⟩, fun n => ?_⟩
      · rcases List.mem_cons.mp ((insertByAge_perm now t xs).mem_iff.mp hy) with rfl | hy
        · exact le
        · exact hx y hy
      · simp only [List.filter_cons, List.cons_append, ih2 n]
    · simp only [if_neg le]
      refine ⟨List.pairwise_cons.mpr ⟨fun y hy => ?_, h⟩, fun n => ?_⟩
      · rcases List.mem_cons.mp hy with rfl | hy
        · omega
        · exact (hx y hy).trans (by omega)
      · have none : roundsSince now t.lastRead = n → (x :: xs).filter (fun x => roundsSince now x.lastRead = n) = [] := by
          rintro rfl
          refine List.filter_eq_nil_iff.mpr fun y hy => ?_
          rcases List.mem_cons.mp hy with rfl | hy
          · simp; omega
          · have := hx y hy
            simp; omega
        by_cases e : roundsSince now t.lastRead = n
        · rw [List.filter_append, none e, List.filter_cons, none e]; simp [e]
        · rw [List.filter_append, List.filter_cons]; simp [e]

/-- The called list of the model is the one that R11 describes. -/
theorem calledList_called (s : State) : isCalledList s (calledList s) := by
  have key : ∀ (l acc : List Track),
      acc.Pairwise (fun x y => roundsSince s.now y.lastRead ≤ roundsSince s.now x.lastRead) →
      let order := l.foldl (fun l t => insertByAge s.now t l) acc
      order.Perm (acc ++ l) ∧ order.Pairwise (fun x y => roundsSince s.now y.lastRead ≤ roundsSince s.now x.lastRead) ∧
        ∀ n, (order.filter fun x => roundsSince s.now x.lastRead = n) =
          (acc ++ l).filter fun x => roundsSince s.now x.lastRead = n := by
    intro l
    induction l with
    | nil => intro acc h; exact ⟨by simp, h, by simp⟩
    | cons t ts ih =>
      intro acc h
      obtain ⟨o1, o2⟩ := insertByAge_ordered s.now t acc h
      obtain ⟨p1, p2, p3⟩ := ih _ o1
      refine ⟨p1.trans ?_, p2, fun n => ?_⟩
      · exact ((insertByAge_perm s.now t acc).append_right ts).trans List.perm_middle.symm
      · rw [List.foldl_cons, p3 n, List.filter_append, o2 n, ← List.filter_append]; simp
  have same : (s.track.table.filter fun t => t.verdict.isNone) = s.track.table.filter fun x => x.verdict = none :=
    List.filter_congr fun x _ => by cases x.verdict <;> simp
  obtain ⟨p, o, f⟩ := key (s.track.table.filter fun t => t.verdict.isNone) [] .nil
  rw [same] at p o f
  refine ⟨_, p, o, f, ?_⟩
  simp only [calledList, same, Config.followCalls]

end Sys2Proof.Machine
end

