-- ==== Sys2Proof/Tests/Slice0.lean ====
section
/-! SUPPORT. Tests: ill-formed commands that the checks refuse, single steps whose results are worked out from the spec, and for
every statement with hypotheses a state and operands that meet them. -/

namespace Sys2Proof.Machine.Tests

/-! ## Helpers -/

/-- The state after one step that takes the command. -/
def after (c : Instr) (s : State) : State :=
  match step { s with pending := [c] } with
  | .next t => t
  | .fault _ => s
  | .refused _ => s

/-- The reset state in a line state. -/
def inState (l : LineState) : State := { State.reset with line := { State.reset.line with state := l } }

/-- The reset state, SYNCED. -/
def synced : State := inState .SYNCED

/-- The reset state in a line state with timing FREE. -/
def free (l : LineState) : State := { inState l with line := { (inState l).line with timing := .FREE } }

/-- A DORMANT pedestal. -/
def dormant : State := rested synced

/-- A state with the straps of a station between two neighbours, reach 1. -/
def atStation (n : Fin 16) (s : State) : State :=
  { s with supply := { s.supply with straps := { station := n, isEnd := false, reach := 1 } } }

/-- A round input in the model's own order, with both coils in their bands. -/
def plain : RoundInput := { order := canonicalOrder, sense := { hInBand := true, sInBand := true } }

/-- Both coils in their bands. -/
def good : DriveSense := { hInBand := true, sInBand := true }

/-- A track of an item, last read at round `r`. -/
def trackOf (item : ItemCode) (r : Round) : Track :=
  { item := item, loan := 0, firstRound := r, lastRead := r, reads := 1, sH := none, sS := none, lastD := none
    startSide := .notSet, phase := .OPEN, side := .RIGHT, pL := none, pR := none, verdict := none, peerAlarm := none
    mark := .none }

/-- A SYNCED pedestal with some tracks at round `r`. -/
def withTracks (table : List Track) (r : Round) : State :=
  { synced with track := { synced.track with table := table }, line := { synced.line with round := r } }

/-- A state with a window in flight. -/
def inWindow (half : Coil) (w : Sweep) (s : State) : State :=
  { s with field := { s.field with window := some { half := half, sweep := w } } }

/-- A search half-sweep with some reply windows to close. -/
def searchWith (toClose closed collided empty : Nat) (read : List ItemCode) : Sweep :=
  .search { toClose := toClose, closed := closed, collided := collided, empty := empty, read := read }

/-- A state with lane machines as given. -/
def withLanes (l r : LaneState) (s : State) : State := { s with lanes := { s.lanes with left := l, right := r } }

/-- Bytes of the link without faults. -/
def clean (bytes : List Byte) : List LinkByte := bytes.map fun b => { value := b, stopDominant := false }

/-- The response waiting or being sent, as its code and payload. -/
def response (s : State) : Option (Byte × List Byte) := s.host.outstanding.map fun r => (r.frame.code, r.frame.payload)

/-- A payload that is too long. -/
def longPayload : List Byte := List.replicate 121 0

/-! ## Ill-formed commands -/

theorem test_wf_short_mark : (Instr.markEnd 18000 7 plain).wf = false ∧ (Instr.markEnd 18000 8 plain).wf = true := by decide

theorem test_wf_round_order :
    let bad : RoundInput := { plain with order := [] }
    let early : RoundInput :=
      { plain with
        order :=
          [.windowEnd, .trackExpiry, .windowStart, .cacheAgeing, .minuteCount, .quietCount, .fieldClass, .staleNotices,
            .soundTimers, .beamsBroken, .dormantTimer, .requestDecision, .slotWord] }
    (Instr.markEnd 18000 8 bad).wf = false ∧ (Instr.roundTimerExpiry bad).wf = false ∧
      (Instr.followingTimeout early).wf = false ∧ (Instr.lineStuck 0 bad).wf = false ∧
      (Instr.lineStuckTimingFree 0 early).wf = false := by decide

theorem test_wf_notice_length :
    (Instr.noticeSlotEnd 0 []).wf = false ∧ (Instr.noticeSlotEnd 0 (List.replicate 721 true)).wf = false ∧
      (Instr.noticeSlotEnd 0 (List.replicate 720 true)).wf = true := by decide +kernel

theorem test_wf_no_bytes : (Instr.hostFrameBad []).wf = false := by decide

theorem test_wf_named_codes :
    (Instr.unknownCommand 0x01 []).wf = false ∧ (Instr.unknownCommand 0x10 [3]).wf = false ∧
      (Instr.unknownCommand 0x10 [4]).wf = true ∧ (Instr.unknownCommand 0x11 []).wf = true := by decide

theorem test_wf_long_payload :
    [Instr.hostFrameBusy 0 longPayload, .unknownCommand 0 longPayload, .identify longPayload, .status longPayload,
      .tracks longPayload, .counts longPayload, .takeCounts longPayload, .reports longPayload, .stream longPayload,
      .setParam longPayload, .getParam longPayload, .excuseAdd longPayload, .excuseDrop longPayload, .excuseList longPayload,
      .hush longPayload, .cadence longPayload, .rest longPayload, .resetFull longPayload, .resetEngine longPayload,
      .resetCounts longPayload].all (fun c => !c.wf) = true := by decide +kernel

/-! ## Field windows and tracks: the figures of 1.4, 2.3 and 3.4 -/

/-- 1.4, step 1: figure 8 with C = 3 and E = 0 gives 11, and step 2 opens 8 windows. -/
theorem test_search_figure_rises :
    (after (.replyWindowEnd .disturbed good) (inWindow .H (searchWith 1 3 2 0 [5]) synced)).field =
      { synced.field with qx4 := 11, window := some { half := .S, sweep := searchWith 8 0 0 0 [] } } := by decide

/-- 1.4, step 10: figure 1 with one empty window stays at 1. -/
theorem test_search_figure_floor :
    (after (.replyWindowEnd .silence good)
      (inWindow .S (searchWith 1 0 0 0 []) { synced with field := { synced.field with qx4 := 1 } })).field.qx4 = 1 := by decide

/-- 2.3, round 501: a strength of 52 read at v = 30 becomes 69. -/
theorem test_smoothing : smooth (some 52) 30 = some 69 ∧ smooth none 12 = some 48 ∧ smooth (some 61) 17 = some 62 := by decide

/-- R23's note: 161 read again at v = 40 stays at 161. -/
theorem test_smoothing_stays : smooth (some 161) 40 = some 161 := by decide

/-- 2.3: a decay of 8 from 69 leaves 61, and from 8 leaves the strength absent. -/
theorem test_half_sweep_decays :
    ((after (.halfSweepTimeLimit good)
      (inWindow .H (searchWith 2 1 0 0 [])
        (withTracks [{ trackOf 1 500 with sH := some 69 }, { trackOf 2 500 with sH := some 8 }] 502))).track.table.map
      Track.sH) = [some 61, none] := by decide

/-- 1.6, in small: a missed call leaves the answered set as it is, and the next track is called. -/
theorem test_follow_call_missed :
    (after (.followCallEnd .disturbed good)
      (inWindow .H (.follow { waiting := [1, 2], called := [], answered := [] }) (withTracks [trackOf 1 100, trackOf 2 102] 106))).field.window =
      some { half := .H, sweep := .follow { waiting := [2], called := [1], answered := [] } } := by decide

/-- 2.3: with linger 25 a track of last-read round 503 stands at round 528 and expires at round 529. -/
theorem test_track_expiry :
    (after .trackExpiry (withTracks [trackOf 1 503] 528)).track.table.length = 1 ∧
      (after .trackExpiry (withTracks [trackOf 1 503] 529)).track.table = [] := by decide

/-- 3.4, round 20: the track of station 7 goes OUT with D = 50 and its verdict is ALARM in lane 7, which sounds. -/
theorem test_crossing_alarm :
    let x : Track :=
      { trackOf 0x04A1C30000225B10 20 with
        sH := some 124, sS := some 174, startSide := .HALL, side := .RIGHT, mark := .read 50 .S }
    let t := after (.halfSweepTimeLimit good)
      (inWindow .S (.follow { waiting := [], called := [], answered := [] }) (atStation 7 (withTracks [x] 20)))
    (t.track.table.map fun y => (y.phase, y.verdict.map fun v => (v.outcome, v.direction, v.lane))) =
        [(.OUT, some (.ALARM, .OUT, some 7))] ∧ t.lanes.right = .SOUNDING 400 := by decide +kernel

/-- R30: a cache entry whose only part is 26 rounds old leaves, at 25 it stays. -/
theorem test_cache_ageing :
    let s : State :=
      { synced with
        track :=
          { synced.track with
            cache := [{ item := 1, left := some { strength := 9, coil := .H, received := 100 }, right := none }] } }
    (after .cacheAgeing { s with line := { s.line with round := 125 } }).track.cache.length = 1 ∧
      (after .cacheAgeing { s with line := { s.line with round := 126 } }).track.cache = [] := by decide

/-! ## Verdicts and excuses: R67 and 4.6 -/

/-- The table of R67. -/
theorem test_loan_test :
    let passes (loan mask : BitVec 8) : Bool := ~~~loan &&& mask = 0
    passes 0x00 0x01 = false ∧ passes 0x01 0x01 = true ∧ passes 0x80 0x01 = false ∧ passes 0x81 0x01 = true ∧
      passes 0x05 0x05 = true ∧ passes 0x04 0x05 = false ∧ passes 0xFE 0xFF = false ∧ passes 0xFF 0xFF = true := by decide

/-- 4.6, round 12,000: A 2, B 1, C 2 in added order become A 1, C 1. -/
theorem test_minute_boundary :
    (after .minuteBoundary
      { synced with
        verdict :=
          { minute := 2999
            excuses := [{ item := 0xA, life := 2 }, { item := 0xB, life := 1 }, { item := 0xC, life := 2 }] } }).verdict =
      { minute := 0, excuses := [{ item := 0xA, life := 1 }, { item := 0xC, life := 1 }] } := by decide

/-- 4.6, rounds 9,300 and 12,050: the order of soonest expiry. -/
theorem test_excuse_order :
    (excuseOrder [{ item := 0xA, life := 2 }, { item := 0xB, life := 1 }, { item := 0xC, life := 2 }]).map ExcuseEntry.item =
        [0xB, 0xA, 0xC] ∧
      (excuseOrder [{ item := 0xA, life := 1 }, { item := 0xC, life := 3 }]).map ExcuseEntry.item = [0xA, 0xC] := by decide

/-- 4.6, round 12,050: EXCUSE-ADD C with life 3 refreshes C and spreads it. -/
theorem test_excuse_add :
    let s : State := { synced with verdict := { minute := 0, excuses := [{ item := 0xA, life := 1 }, { item := 0xC, life := 1 }] } }
    let t := after (.excuseAdd [0, 0, 0, 0, 0, 0, 0, 0xC, 3]) s
    t.verdict.excuses = [{ item := 0xA, life := 1 }, { item := 0xC, life := 3 }] ∧
      t.notices.outbox = [{ body := .EXCUSE [{ item := 0xC, life := 3 }], built := 0 }] ∧ response t = some (0x8A, [2]) := by
  decide +kernel

/-- 4.6, round 15,300: EXCUSE-DROP of an absent item changes nothing here and still spreads. -/
theorem test_excuse_drop :
    let t := after (.excuseDrop [0, 0, 0, 0, 0, 0, 0, 0xB])
      { synced with verdict := { minute := 0, excuses := [{ item := 0xC, life := 2 }] } }
    t.verdict.excuses = [{ item := 0xC, life := 2 }] ∧
      t.notices.outbox = [{ body := .EXCUSE [{ item := 0xB, life := 0 }], built := 0 }] ∧ response t = some (0x8B, [0, 1]) := by
  decide

/-- R82: entries in list order behind the number of entries. -/
theorem test_excuse_list :
    response
        (after (.excuseList [1])
          { synced with verdict := { minute := 0, excuses := [{ item := 0xA, life := 9 }, { item := 0xB, life := 1 }] } }) =
      some (0x8C, [2, 0, 0, 0, 0, 0, 0, 0, 0xA, 9]) := by decide

/-! ## The line (chapter 5) -/

/-- R89: a mark that begins at 17,572 is a start mark, one at 17,571 a framing error. -/
theorem test_mark_end_classed :
    (after (.markEnd 17572 9 plain) synced).line.round = 1 ∧ (after (.markEnd 17572 9 plain) synced).line.timer = 9 ∧
      (after (.markEnd 17572 9 plain) synced).host.errors.lineErrors = 0 ∧
      (after (.markEnd 17571 9 plain) synced).host.errors.lineErrors = 1 := by decide +kernel

/-- R91: the end of a mark of 8 makes a listening pedestal SYNCED. -/
theorem test_mark_end_joins : (after (.markEnd 3 8 plain) State.reset).line.state = .SYNCED := by decide +kernel

theorem test_round_timer_expiry :
    (after (.roundTimerExpiry plain) (inState .LONE)).line.round = 1 ∧
      (after (.roundTimerExpiry plain) (inState .LONE)).line.timer = 0 ∧
      (after (.roundTimerExpiry plain) synced).line.round = 0 := by decide +kernel

/-- R87, R93: the timer at 2,428 has passed every station slot; a mark of 32 has passed the slot of station 0, at 16 to 31, alone. -/
theorem test_following_timeout :
    let heardAll : State :=
      { inState .CLASHED with
        supply := (atStation 5 synced).supply, line := { (inState .CLASHED).line with slots := Vector.replicate 16 .ABSENT } }
    let outcomes (c : Instr) : List SlotOutcome := (after c heardAll).line.slots.toList.eraseIdx 5
    (after (.followingTimeout plain) heardAll).line.timer = 2428 ∧
      outcomes (.followingTimeout plain) = List.replicate 15 .NOT_RECEIVED ∧
      outcomes (.markEnd 17572 32 plain) = .NOT_RECEIVED :: List.replicate 14 .ABSENT := by decide +kernel

theorem test_start_mark_send :
    (after (.startMarkSend .recessive) synced).line.startMark = .sending ∧
      (after (.startMarkSend .dominant) synced).line.startMark = .heldBack ∧
      (after .runTooShort (after (.startMarkSend .dominant) synced)).line.startMark = .sending := by decide

/-- R85: a mark is 12 bit times dominant and 4 recessive, and is driven only while it is sent. -/
theorem test_start_mark_driven :
    (after (.startMarkSend .recessive) synced).markDriven =
        [false, false, false, false, false, false, false, false, false, false, false, false, true, true, true, true] ∧
      (after (.startMarkSend .dominant) synced).markDriven.all id = true := by decide

theorem test_listen_timeout : (after .listenTimeout State.reset).line.state = .SYNCED := by decide

theorem test_line_stuck :
    (after (.lineStuck 19999 plain) synced).line.state = .LONE ∧ (after (.lineStuck 19999 plain) synced).line.round = 0 ∧
      (after (.lineStuck 20000 plain) synced).line.round = 1 := by decide +kernel

theorem test_line_stuck_timing_free :
    (after (.lineStuckTimingFree 500 plain) (inState .CLASHED)).line.timing = .FREE ∧
      (after (.lineStuckTimingFree 500 plain) (inState .CLASHED)).line.state = .CLASHED := by decide

theorem test_lone_recovery :
    (after .loneRecovery (inState .LONE)).line.state = .LISTEN ∧
      (after .loneRecovery (inState .LONE)).host.ring = [{ stamp := 0, body := .FAULT .line .CLEARED }] := by decide

theorem test_timing_following_restored :
    (after .timingFollowingRestored (free .CLASHED)).line.timing = .FOLLOWING := by decide

/-- R196: presence dominant, left SOUND, right OCCUPIED (2 = 010), spacer, DEFERRED, hall broken, street clear, BRISK, guard.
Bit times 0 to 15: 0 000 010 1 1 1 0 0 1111. -/
theorem test_slot_bits :
    slotBits { left := .SOUND, right := .OCCUPIED, fieldClass := .DEFERRED, hall := .BROKEN, street := .CLEAR, calm := .BRISK } =
      0b1111001110100000 := by decide

/-- R95: a code is confirmed at its second observation in a row. -/
theorem test_slot_received :
    let w : SlotWord :=
      { left := .SOUND, right := .QUIET, fieldClass := .FRESH, hall := .CLEAR, street := .CLEAR, calm := .CALM }
    let once := after (.slotReceived 1 (slotBits w)) synced
    once.line.peerRight = { confirmed := .ABSENT, lastSeen := some (.code .SOUND) } ∧ once.lanes.right = .ARMED ∧
      (after (.slotReceived 1 (slotBits w)) once).lanes.right = .SOUNDING 400 := by decide

theorem test_own_slot_readback :
    let once := after (.ownSlotReadback 0) synced
    once.line.clashMark = true ∧ once.line.state = .SYNCED ∧ (after (.ownSlotReadback 0) once).line.state = .CLASHED ∧
      (after (.ownSlotReadback (slotBits once.line.slotWord)) once).line.clashMark = false := by decide

/-- R126: station 3, FRESH, against a FRESH station 2 (which precedes it) and a FRESH station 4 (which does not). -/
theorem test_request_field_end :
    let s : State := atStation 3 { synced with access := { synced.access with requests := some true } }
    (after (.requestFieldEnd (~~~0b11000)) s).access.grant = true ∧
      (after (.requestFieldEnd (~~~0b01100)) s).access.grant = false := by decide

/-- R195: with the field at 272, station 9 requests at 282 (after the spacer at 279), station 14 at 288 (after the spacer at 287);
a spacer or a guard bit time read dominant names no station. -/
theorem test_request_field_layout :
    requestSetOf (~~~(1 <<< 10 ||| 1 <<< 16)) = 1 <<< 9 ||| 1 <<< 14 ∧
      requestSetOf (~~~(1 <<< 7 ||| 1 <<< 15 ||| 1 <<< 18 ||| 1 <<< 19)) = 0 ∧
      requestLevels 9 = (List.replicate 20 true).set 10 false ∧ requestLevels 15 = (List.replicate 20 true).set 17 false := by
  decide

/-! ## Notices (chapter 6) -/

/-- R199 over the bytes of the digits 1 to 9: the shift register of that polynomial and start value gives 0x29B1. -/
theorem test_crc16 :
    crc16 (([0x31, 0x32, 0x33, 0x34, 0x35, 0x36, 0x37, 0x38, 0x39] : List Byte).flatMap bitsOf) = 0x29B1 := by decide +kernel

theorem test_notice_slot_start :
    let s : State := { synced with notices := { synced.notices with outbox := [{ body := .EXCUSE [], built := 0 }] } }
    (after (.noticeSlotStart 23) s).notices.inFlight = .PLACING ∧ (after (.noticeSlotStart 23) s).line.timer = 16852 := by decide

/-- What the line reads in a notice slot in which a notice of station `n` was placed. -/
def heardFrom (n : Fin 16) (body : NoticeBody) : List Bool := placeData noticeBitTimes (noticeBits .FRESH n body)

/-- R197: data bit 6 lies at bit time 6, the spacer after it at 7, data bit 7 at bit time 8, data bit 629 at bit time 718. -/
theorem test_notice_bit_times :
    placeData 10 [false, false, false, false, false, false, false, false] =
        [false, false, false, false, false, false, false, true, false, true] ∧
      dataTime 6 = 6 ∧ dataTime 7 = 8 ∧ dataTime 629 = 718 := by decide

/-- R117, R119: an EXCUSE notice of station 9 enters the list of another station; with its data bit 80, at bit time 91, turned it
is a bad notice; a spacer read dominant changes nothing. -/
theorem test_notice_slot_end :
    let bits := heardFrom 9 (.EXCUSE [{ item := 0xB, life := 1 }])
    let spoilt := bits.set 91 (!bits.getD 91 true)
    (after (.noticeSlotEnd 0 bits) synced).verdict.excuses = [{ item := 0xB, life := 1 }] ∧
      (after (.noticeSlotEnd 0 (bits.set 7 false)) synced).verdict.excuses = [{ item := 0xB, life := 1 }] ∧
      (after (.noticeSlotEnd 0 spoilt) synced).verdict.excuses = [] ∧
      (after (.noticeSlotEnd 0 spoilt) synced).host.errors.noticeCrc = 1 := by decide +kernel

/-- R74: lane 15 names no lane; lane 14 is the left lane of station 15. -/
theorem test_lane_fifteen :
    let s := atStation 15 (withTracks [trackOf 1 5] 5)
    let peerAlarm (lane : BitVec 4) : List (Option Nat) :=
      (takeVerdictEntry { item := 1, lane := lane, verdict := 1 } s).track.table.map Track.peerAlarm
    peerAlarm 15 = [none] ∧ peerAlarm 14 = [some 14] := by decide

/-- 6.3: with 8 notices held a further one displaces the oldest SIGHTING. -/
theorem test_outbox_full :
    let v : Notice := { body := .VERDICT [], built := 298 }
    let n (r : Round) : Notice := { body := .SIGHTING [], built := r }
    (queueNotice (.SIGHTING [])
        { synced with
          line := { synced.line with round := 300 }
          notices := { outbox := [v, n 298, n 299, v, n 299, v, n 300, n 300], inFlight := .NONE } }).notices.outbox =
      [v, n 299, v, n 299, v, n 300, n 300, n 300] := by decide

/-- R108: a SIGHTING notice leaves 5 rounds after it was built. -/
theorem test_stale_notice :
    let s (r : Round) : State :=
      { synced with
        line := { synced.line with round := r }
        notices := { outbox := [{ body := .SIGHTING [], built := 298 }, { body := .VERDICT [], built := 298 }], inFlight := .NONE } }
    (after .staleNotice (s 302)).notices.outbox.length = 2 ∧ (after .staleNotice (s 303)).notices.outbox.length = 1 := by decide

/-! ## Cadence, lanes and quiet hours (chapters 7, 8 and 12) -/

theorem test_calm_entry :
    let s (n : Nat) : State := { synced with access := { synced.access with quietRounds := n } }
    (after .calmEntry (s 249)).access.cadence = .BRISK ∧ (after .calmEntry (s 250)).access.cadence = .CALM := by decide

theorem test_sound_limit_expiry :
    let s : State := { withLanes .ARMED (.SOUNDING 1) synced with sounder := { synced.sounder with playing := true } }
    (after (.soundLimitExpiry .right) s).lanes.right = .ARMED ∧ (after (.soundLimitExpiry .right) s).sounder.playing = false ∧
      (after (.soundLimitExpiry .right) s).host.ring = [{ stamp := 0, body := .LANE 0 false .LIMIT }] := by decide

/-- R191: at the default dormant_delay of 10 the tenth quiet minute makes DORMANT entry. -/
theorem test_quiet_minute :
    let s (n : Nat) : State := { synced with supply := { synced.supply with dormantRounds := 2999, quietMinutes := n } }
    (after .quietMinute (s 8)).supply.dormancy = .AWAKE ∧ (after .quietMinute (s 8)).supply.quietMinutes = 9 ∧
      (after .quietMinute (s 9)).supply.dormancy = .DORMANT ∧ (after .quietMinute (s 9)).line.state = .SILENT := by decide

theorem test_flash_toggle :
    (after (.flashToggle .right) (withLanes .ARMED (.HUSHED true) synced)).lanes.right = .HUSHED false ∧
      (after (.flashToggle .right) (withLanes .ARMED (.SOUNDING 3) synced)).lanes.right = .SOUNDING 3 := by decide

/-- R145, R146: a press needs two pressed samples of a RELEASED filter. -/
theorem test_clear_press :
    let s : State :=
      { withLanes .ARMED (.SOUNDING 9) synced with
        lanes := { left := .ARMED, right := .SOUNDING 9, clear := { pressed := false, latest := some false } }
        sounder := { synced.sounder with playing := true } }
    let once := after (.clearSample true) s
    once.lanes.right = .SOUNDING 9 ∧ (after .clearPress once).lanes.right = .ARMED ∧
      (after .clearPress once).sounder.playing = false := by decide

/-! ## Sounder (chapter 9) -/

/-- The table of R160. -/
theorem test_phase_words :
    phaseWord 200 = some 819 ∧ phaseWord 2000 = some 8192 ∧ phaseWord 2400 = some 9830 ∧ phaseWord 3000 = some 12288 ∧
      phaseWord 4000 = some 16384 ∧ phaseWord 0 = none := by decide

/-- 9.5: amplitudes at volume 4 and 0 and at -6 dB, and the limit of R161. -/
theorem test_amplitudes :
    amplitudeAt 0 4 = 408 ∧ amplitudeAt 0 0 = 1024 ∧ amplitudeAt 6 0 = 513 ∧ amplitudeAt 0 15 = 32 ∧ amplitudeAt 18 15 = 0 := by
  decide

/-- 9.5, samples k = 4 and k = 28 of entry 0 at volume 4 and at volume 0. -/
theorem test_sounder_sample :
    let s (a : Nat) (accA accB : BitVec 16) : State :=
      { synced with
        sounder :=
          { synced.sounder with
            playing := true, samplesLeft := 100
            latched := some { nA := some 9830, nB := some 12288, amplitude := some a }, accA := accA, accB := accB } }
    (after .sounderSample (s 408 39320 49152)).sounder.output = -643 ∧
      (after .sounderSample (s 1024 39320 49152)).sounder.output = -1614 ∧
      (after .sounderSample (s 408 13096 16384)).sounder.output = 795 ∧
      (after .sounderSample (s 1024 13096 16384)).sounder.output = 1996 := by decide

/-- 9.5: two equal tones at volume 0 give 2047 at index 64 and -2048 at index 192. -/
theorem test_sounder_limits :
    let s (acc : BitVec 16) : State :=
      { synced with
        sounder :=
          { synced.sounder with
            playing := true, samplesLeft := 100
            latched := some { nA := some 9830, nB := some 9830, amplitude := some 1024 }, accA := acc, accB := acc } }
    (after .sounderSample (s 0x4000)).sounder.output = 2047 ∧ (after .sounderSample (s 0xC000)).sounder.output = -2048 := by
  decide

/-- 9.3: entry 1 follows entry 0 after 4,000 samples; entry 4 is an end marker, so entry 0 follows entry 3. -/
theorem test_sounder_entry_end :
    let s (i : Fin 16) : State :=
      { synced with
        sounder :=
          { synced.sounder with
            playing := true, position := i, samplesLeft := 0, latched := some { nA := none, nB := none, amplitude := none } } }
    (after .sounderEntryEnd (s 0)).sounder.position = 1 ∧ (after .sounderEntryEnd (s 0)).sounder.samplesLeft = 1600 ∧
      (after .sounderEntryEnd (s 3)).sounder.position = 0 ∧ (after .sounderEntryEnd (s 3)).sounder.samplesLeft = 4000 := by decide

theorem test_sounder_recheck :
    let s : State :=
      { synced with
        sounder :=
          { synced.sounder with
            playing := true, table := synced.sounder.table.set 0 { toneA := 0, toneB := 0, level := none, duration := 0 } } }
    (after .sounderEndMarkerRecheck s).sounder.samplesLeft = 160 ∧ (after .sounderEndMarkerRecheck s).sounder.latched = none := by
  decide

/-! ## Beams: the walk out of 10.3 -/

theorem test_walk_out :
    let walk :=
      [(Beam.BROKEN, Beam.CLEAR), (.BROKEN, .CLEAR), (.BROKEN, .BROKEN), (.BROKEN, .BROKEN), (.CLEAR, .BROKEN),
        (.CLEAR, .BROKEN), (.CLEAR, .CLEAR), (.CLEAR, .CLEAR)]
    let t := walk.foldl (fun s p => sampleBeams p.1 p.2 s) (atStation 5 synced)
    t.beams.footfall = .CLEAR ∧ t.beams.counts.beamExits = 1 ∧ t.beams.counts.beamEntries = 0 ∧
      t.track.rightBroken = some 0 := by decide

/-- R166, R194: the sample that confirms a break wakes a DORMANT pedestal. -/
theorem test_beam_change_wakes :
    let s : State := { dormant with beams := { dormant.beams with hall := { confirmed := .CLEAR, latest := some .BROKEN } } }
    (after (.beamSample .BROKEN .CLEAR) dormant).supply.dormancy = .DORMANT ∧
      (after (.beamChange .BROKEN .CLEAR) s).supply.dormancy = .AWAKE ∧
      (after (.beamChange .BROKEN .CLEAR) s).line.state = .LISTEN ∧
      (after (.beamChange .BROKEN .CLEAR) s).access.cadence = .BRISK := by decide

/-! ## Host port (chapter 11) -/

/-- R200 over length 0 and code 1, worked through the shift register by hand: 0xD0. -/
theorem test_crc8 : crc8 [0, 1] = 0xD0 := by decide +kernel

/-- R174: the frame of IDENTIFY, byte by byte, is taken; with a wrong CRC-8 it is discarded and counted. -/
theorem test_host_frame :
    response (after (.hostFrameBad (clean [0xC3, 0, 1, 0xD0])) synced) = response (after (.identify []) synced) ∧
      response (after (.hostFrameBad (clean [0xC3, 0, 1, 0xD1])) synced) = none ∧
      (after (.hostFrameBad (clean [0xC3, 0, 1, 0xD1])) synced).host.errors.hostFrames = 1 ∧
      (after (.hostFrameBad (clean [0xC3, 121])) synced).host.receiver = .HUNT := by decide +kernel

theorem test_host_byte_gap :
    (after (.hostByteGapTimeout (clean [0xC3, 2]) { value := 0xC3, stopDominant := false }) synced).host.receiver = .LENGTH ∧
      (after (.hostByteGapTimeout (clean [0xC3, 2]) { value := 7, stopDominant := false }) synced).host.errors.hostFrames = 1 := by
  decide

theorem test_host_frame_busy :
    let s := after (.identify []) synced
    (after (.hostFrameBusy 2 []) s).host.errors.hostFrames = 1 ∧
      response (after (.hostFrameBusy 2 []) s) = response s := by decide

theorem test_unknown_command :
    response (after (.unknownCommand 0x20 [9]) synced) = some (0xFE, [1, 0x20]) ∧
      response (after (.unknownCommand 0x10 [4]) synced) = some (0xD0, [1]) := by decide

/-- R177, R201: station 7, END clear, reach 2, cause SUPPLY. -/
theorem test_identify :
    response
        (after (.identify [])
          { synced with
            supply := { synced.supply with straps := { station := 7, isEnd := false, reach := 2 }, cause := .SUPPLY } }) =
      some (0x81, [0x6B, 0x21, 0x04, 0x16, 0x01, 0x71, 2]) := by decide

/-- R177: the reset state: LISTEN, BRISK, coils OK, no left lane, ARMED, ABSENT, no errors, an empty ring, STREAM off. -/
theorem test_status :
    response (after (.status []) State.reset) =
      some (0x82, [1, 0, 0, 0xFF, 0, 0xFF, 6] ++ List.replicate 12 0 ++ [0, 0]) := by decide

/-- R201: the number of tracks, then 158 bits of summary: 21 bytes in all for one track. -/
theorem test_tracks :
    (response (after (.tracks [0]) (withTracks [trackOf 1 7] 9))).map (fun r => (r.1, r.2.length, r.2.headD 0)) =
        some (0x83, 21, 1) ∧
      response (after (.tracks [0]) synced) = some (0x83, [0]) := by decide +kernel

theorem test_counts :
    let s : State := { synced with beams := { synced.beams with counts := { synced.beams.counts with beamExits := 0x010203 } } }
    response (after (.counts []) s) = some (0x84, [1, 2, 3] ++ List.replicate 12 0) ∧
      (after (.takeCounts []) s).beams.counts.beamExits = 0 ∧
      response (after (.takeCounts []) s) = some (0x85, [1, 2, 3] ++ List.replicate 12 0) := by decide

/-- 11.7, 0.9 ms: REPORTS passes over the record in transmission; 1.04 ms: the REPORT frame ends and the response begins. -/
theorem test_reports :
    let l1 : Report := { stamp := 1, body := .LANE 6 true .OWN }
    let p1 : Report := { stamp := 2, body := .LANE 6 false .HOST }
    let s : State :=
      { synced with host := { synced.host with ring := [l1, p1], streaming := true, transmitter := .SENDING_REPORT } }
    let t := after (.reports [4]) s
    t.host.ring = [l1] ∧ response t = some (0x86, [1, 3, 0, 0, 0, 2, 6, 2, 4]) ∧
      (after .reportFrameSent t).host.ring = [] ∧ (after .reportFrameSent t).host.transmitter = .SENDING_RESPONSE := by decide

theorem test_stream :
    (after (.stream [1]) synced).host.streaming = true ∧ response (after (.stream [1]) synced) = some (0x87, [1]) ∧
      response (after (.stream [2]) synced) = some (0xC7, [1]) := by decide

/-- 11.7, 5.0 ms: SET volume 20 stores 15. R178: SET T_side 60 raises T_cross to 60. -/
theorem test_set :
    (after (.setParam [11, 0, 20]) synced).host.params.volume = 15 ∧
      response (after (.setParam [11, 0, 20]) synced) = some (0x88, [11, 0, 15]) ∧
      (after (.setParam [4, 0, 60]) synced).host.params.tCross = 60 ∧
      response (after (.getParam [13]) synced) = some (0x89, [13, 0, 250]) := by decide

theorem test_get_unknown : response (after (.getParam [16]) synced) = some (0xC9, [1]) := by decide

theorem test_hush :
    let s : State := { withLanes .ARMED (.SOUNDING 9) synced with sounder := { synced.sounder with playing := true } }
    response (after (.hush [3]) s) = some (0x8D, [0xFF, 0]) ∧
      (after (.hush [2]) s).host.ring = [{ stamp := 0, body := .LANE 0 false .HOST }] ∧
      response (after (.hush [1]) s) = some (0xCD, [3]) := by decide

/-- R175, R184: the response of a HUSH is outstanding from the moment it is taken, so that it goes before the LANE record. -/
theorem test_hush_streaming :
    let s : State :=
      { withLanes .ARMED (.SOUNDING 9) synced with
        sounder := { synced.sounder with playing := true }, host := { synced.host with streaming := true } }
    (after (.hush [2]) s).host.transmitter = .SENDING_RESPONSE ∧
      (after (.hush [2]) s).host.ring = [{ stamp := 0, body := .LANE 0 false .HOST }] := by decide

/-- R160: a REST entry's tones have their phase words. -/
theorem test_rest_entry_latched :
    latchOf 0 { toneA := 2000, toneB := 0, level := none, duration := 1 } =
      { nA := some 8192, nB := none, amplitude := none } := by decide

/-- 9.3, 400 ms: tone A 2000, tone B 0, level -5, duration 25 is stored as 2000 Hz, -6 dB, 25. -/
theorem test_cadence :
    (after (.cadence [2, 0x07, 0xD0, 0, 0, 0xFB, 25]) synced).sounder.table[2] =
        { toneA := 2000, toneB := 0, level := some 6, duration := 25 } ∧
      response (after (.cadence [2, 0x07, 0xD0, 0, 0, 0xFB, 25]) synced) = some (0x8E, [2, 0x07, 0xD0, 0, 0, 0xFA, 25]) := by
  decide

theorem test_rest :
    (after (.rest []) synced).supply.dormancy = .DORMANT ∧ response (after (.rest []) synced) = some (0x8F, []) ∧
      response (after (.rest []) (withLanes .ARMED (.SOUNDING 9) synced)) = some (0xCF, [4]) := by decide

theorem test_resets_wait :
    let noisy : State :=
      { synced with
        host := { synced.host with errors := { synced.host.errors with lineErrors := 7 } }
        field := { synced.field with qx4 := 3 }, line := { synced.line with round := 55 } }
    let pins : StrapPins := { station := 9, endHigh := true, reachHigh := true }
    (after (.resetCounts []) noisy).host.errors.lineErrors = 7 ∧
      (after (.responseSent pins) (after (.resetCounts []) noisy)).host.errors.lineErrors = 0 ∧
      (after (.responseSent pins) (after (.resetEngine []) noisy)).field.qx4 = 8 ∧
      (after (.responseSent pins) (after (.resetFull []) noisy)).line.round = 0 ∧
      (after (.responseSent pins) (after (.resetFull []) noisy)).supply.straps = { station := 9, isEnd := true, reach := 2 } ∧
      (after (.responseSent pins) (after (.resetFull []) noisy)).supply.cause = .FULL := by decide

theorem test_power_on :
    let pins : StrapPins := { station := 2, endHigh := false, reachHigh := false }
    let held := after (.powerOnHold .supplyDip) synced
    heldInReset held = true ∧ (after (.identify []) held).host.outstanding = none ∧
      (after (.powerOn .supplyDip pins) held).supply.cause = .SUPPLY ∧
      (after (.powerOn .supplyDip pins) held).line.state = .LISTEN ∧ heldInReset (after (.powerOn .supplyDip pins) held) = false := by
  decide

/-! ## Witnesses: a state and operands that meet the hypotheses of each statement, clause by clause -/

theorem witness_StepTakesFront : State.reset.pending = [] := by decide

theorem witness_EveryCommandGoesOn : ∃ t, exec .trackExpiry synced = .next t := ⟨_, rfl⟩

/-- The reset state held by a supply dip. -/
def held : State := { synced with supply := { synced.supply with heldBy := [.supplyDip] } }

theorem witness_HeldTakesNothing :
    heldInReset held = true ∧ (∀ source, Instr.beamSample .BROKEN .CLEAR ≠ .powerOnHold source) ∧
      ∀ last pins, Instr.beamSample .BROKEN .CLEAR ≠ .powerOn last pins :=
  ⟨by decide, by simp, by simp⟩

theorem witness_RoundCountAndStrapsHeld :
    (∃ t, exec (.markEnd 17572 8 plain) synced = .next t) ∧ ∀ last pins, Instr.markEnd 17572 8 plain ≠ .powerOn last pins :=
  ⟨⟨_, rfl⟩, by simp⟩

/-- A pedestal at work: SYNCED at station 3, a track with a verdict, its window in flight, a machine SOUNDING, a notice in
flight, and a command waiting. -/
def busy : State :=
  let s := inWindow .H (searchWith 4 0 0 0 []) (atStation 3 (withLanes .ARMED (.SOUNDING 1) (withTracks
    [{ trackOf 1 90 with
        phase := .OUT
        verdict := some { outcome := .PASS, direction := .OUT, lane := some 3, loanTested := 1, held := false } }] 100)))
  { s with
    notices := { outbox := [{ body := .VERDICT [], built := 100 }], inFlight := .PLACING }
    sounder := { s.sounder with playing := true }
    pending := [.trackExpiry] }

theorem witness_invariants :
    withinCapacity busy ∧ sounderFollows busy ∧ lineConduct busy ∧ fieldFigure busy.field ∧ countersInRange busy ∧
      busy.pending ≠ [] :=
  ⟨⟨⟨by decide, by decide, by decide⟩, by decide⟩, by decide, by decide, ⟨by decide, by show _ ∧ _ ∧ _; decide⟩,
    ⟨by decide, by decide, by decide, by decide, by decide, by decide, by decide, trivial, by show _ ∧ _; decide⟩, by decide⟩

theorem witness_invariants_step : ∃ t, step busy = .next t := ⟨_, rfl⟩

theorem witness_invariants_dormant :
    withinCapacity dormant ∧ sounderFollows dormant ∧ lineConduct dormant ∧ dormant.supply.dormancy = .DORMANT :=
  ⟨⟨⟨by decide, by decide, by decide⟩, by decide⟩, by decide, by decide, by decide⟩

theorem witness_FiguresStayInRange_limits :
    fieldFigure { synced.field with qx4 := 1 } ∧
      fieldFigure { synced.field with qx4 := 20, window := some { half := .S, sweep := searchWith 32 0 0 0 [] } } ∧
      fieldFigure
        { synced.field with
          window := some { half := .S, sweep := .follow { waiting := [1], called := List.replicate 15 2, answered := [] } } } :=
  ⟨⟨by decide, trivial⟩, ⟨by decide, by show _ ∧ _ ∧ _; decide⟩, ⟨by decide, by show _ ∧ _; decide⟩⟩

theorem witness_VerdictStands :
    (busy.track.table.map Track.item).Nodup ∧
      ∃ t x y v, step busy = .next t ∧ x ∈ busy.track.table ∧ y ∈ t.track.table ∧ y.item = x.item ∧ x.verdict = some v :=
  ⟨by decide, _, _, _, _, rfl, List.mem_singleton.mpr rfl, List.mem_singleton.mpr rfl, rfl, rfl⟩

theorem witness_StartMarkStartsRound :
    heldInReset synced = false ∧ synced.line.state = .SYNCED ∧ heldInReset dormant = false ∧ dormant.line.state = .SILENT ∧
      dormant.line.timing = .FOLLOWING ∧ (inState .CLASHED).line.state = .CLASHED ∧
      (inState .CLASHED).line.timing = .FOLLOWING ∧ 8 ≤ 8 ∧ 17572 ≤ 17572 := by decide

theorem witness_MarksOutsideSync :
    heldInReset State.reset = false ∧ State.reset.line.state = .LISTEN ∧ 8 ≤ 8 ∧ 7 < 8 ∧ (inState .LONE).line.state = .LONE ∧
      (free .SILENT).line.state = .SILENT ∧ (free .SILENT).line.timing = .FREE ∧ (free .CLASHED).line.timing = .FREE := by
  decide

theorem witness_FramingErrorAbandonsRound :
    heldInReset synced = false ∧ synced.line.state = .SYNCED ∧ dormant.line.state = .SILENT ∧
      (inState .CLASHED).line.timing = .FOLLOWING ∧ 8 ≤ 8 ∧ 17571 < 17572 ∧ restNotDue synced := by decide

/-- A SYNCED round of station 0 in which station 1 requested, its slot not received. -/
def rivalled : State := { synced with line := { synced.line with requestSet := some 0b10, fieldClass := .DEFERRED } }

theorem witness_SyncedRoundStart_classes :
    restNotDue synced ∧ { synced with access := { synced.access with grant := true } }.access.grant = true ∧
      synced.line.requestSet = none ∧ rivalled.access.grant = false ∧ rivalled.line.requestSet = some 0b10 ∧
      (0b10 : BitVec 16).getLsbD 1 = true ∧ rivalled.line.slots[1] = .NOT_RECEIVED ∧ 8 ≤ 8 ∧ 17572 ≤ 17572 := by decide

theorem witness_SyncedRoundStart_quiet :
    let s (n : Nat) : State := { synced with access := { synced.access with quietRounds := n } }
    synced.supply.dormancy = .AWAKE ∧ synced.track.table = [] ∧ synced.field.window = none ∧ synced.access.grant = false ∧
      (s 249).host.params.calmAfter ≤ 249 + 1 ∧ 248 + 1 < (s 248).host.params.calmAfter ∧
      { synced with access := { synced.access with cadence := .CALM } }.access.cadence = .CALM := by decide

theorem witness_SyncedRoundStart_codes :
    let s := atStation 5 (withLanes (.SOUNDING 2) (.HUSHED true) (withTracks [{ trackOf 1 76 with side := .UNSURE }] 100))
    restNotDue s ∧ s.line.state = .SYNCED ∧ s.field.window = none ∧ s.access.grant = false ∧
      (∀ x ∈ s.track.table, (s.line.round + 1 - x.lastRead).toNat ≤ s.host.params.linger) ∧ s.lanes.left = .SOUNDING 2 := by
  decide

theorem witness_WindowBegins :
    let granted : State := { synced with access := { synced.access with grant := true } }
    restNotDue granted ∧ granted.field.window = none ∧ granted.field.coilH = .OK ∧ plain.sense.hInBand = true ∧
      granted.line.state = .SYNCED ∧ granted.access.grant = true ∧
      (atStation 1 (inState .LONE)).line.state = .LONE ∧
      ((atStation 1 (inState .LONE)).line.round + 1).toNat % (2 * 1 + 1) = 1 % (2 * 1 + 1) ∧ 17572 ≤ 18000 ∧ 8 ≤ 12 := by decide

theorem witness_TimerReachesLimit :
    let late : State := { State.reset with line := { State.reset.line with listenTime := 40000, timer := 0 } }
    { synced with line := { synced.line with startMark := .heldBack } }.line.startMark = .heldBack ∧
      late.line.state = .LISTEN ∧ 60000 ≤ late.line.listenTime + (20000 - late.line.timer) ∧ heldInReset held = true ∧
      (inState .LONE).line.state ≠ .SYNCED ∧ { synced.line with startMark := .sending }.startMark = .sending := by decide

theorem witness_OwnTimerStartsRound :
    let early : State := { State.reset with line := { State.reset.line with listenTime := 39999, timer := 0 } }
    early.line.state = .LISTEN ∧ early.line.listenTime + (20000 - early.line.timer) < 60000 ∧
      (free .SILENT).line.timing = .FREE ∧ dormant.line.state = .SILENT ∧ dormant.line.timing = .FOLLOWING := by decide

theorem witness_StuckLineActs :
    synced.line.state = .SYNCED ∧ State.reset.line.state = .LISTEN ∧ 19999 < 20000 ∧ 20000 ≤ 20000 ∧
      (inState .CLASHED).line.state = .CLASHED ∧ (inState .CLASHED).line.timing = .FOLLOWING ∧
      dormant.line.state = .SILENT := by decide

theorem witness_QuietLineRestores :
    (inState .LONE).line.state = .LONE ∧ (free .CLASHED).line.state = .CLASHED ∧ (free .CLASHED).line.timing = .FREE ∧
      (free .SILENT).line.state = .SILENT := by decide

theorem witness_RoundPartsAct :
    let s (n m : Nat) : State :=
      { synced with access := { synced.access with quietRounds := n }, verdict := { synced.verdict with minute := m } }
    (s 250 0).host.params.calmAfter ≤ (s 250 0).access.quietRounds ∧ (s 249 0).access.quietRounds < (s 249 0).host.params.calmAfter ∧
      3000 ≤ (s 0 2999).verdict.minute + 1 ∧ (s 0 2998).verdict.minute + 1 < 3000 ∧ busy.notices.inFlight = .PLACING ∧
      synced.notices.inFlight = .NONE := by decide

theorem witness_MinuteAndSoundTimers :
    let s (n : Nat) : State := { synced with supply := { synced.supply with dormantRounds := 2999, quietMinutes := n } }
    hasLane busy .right = true ∧ laneState busy .right = .SOUNDING 1 ∧ hasLane synced .left = false ∧
      quiet (s 9) = true ∧ 2999 ≤ (s 9).supply.dormantRounds ∧ (s 9).supply.pendingEntry = false ∧
      (s 9).host.params.dormantDelay ≤ min 240 (9 + 1) ∧ ¬(s 8).host.params.dormantDelay ≤ min 240 (8 + 1) ∧
      anySounding (s 9) = false ∧ (s 9).host.outstanding = none ∧ quiet (withLanes .ARMED (.SOUNDING 1) (s 9)) = true ∧
      anySounding (withLanes .ARMED (.SOUNDING 1) (s 9)) = true ∧
      ((after (.resetEngine [0]) (s 9)).host.outstanding.map fun r => r.frame.code) = some 0xD0 ∧
      ((after (.resetEngine []) (s 9)).host.outstanding.map fun r => r.frame.code) = some 0x90 := by decide

theorem witness_MinuteAndSoundTimers_rounds :
    let s (n m : Nat) (waiting : Bool) (l : LineState) : State :=
      { inState l with supply := { synced.supply with dormantRounds := n, quietMinutes := m, pendingEntry := waiting } }
    let noisy : State := { s 0 0 false .LISTEN with access := { synced.access with peerCalm := Vector.replicate 16 .BRISK } }
    (s 0 0 false .LISTEN).track.table = [] ∧ (s 0 0 false .LISTEN).field.window = none ∧
      (s 0 0 false .LISTEN).line.listenTime + (20000 - (s 0 0 false .LISTEN).line.timer) < 60000 ∧
      (s 0 0 false .SYNCED).line.state = .SYNCED ∧ (s 0 0 false .SYNCED).access.grant = false ∧
      quiet (s 2998 0 false .LISTEN) = true ∧ quiet noisy = false ∧ 2998 + 1 < 3000 ∧ 3000 ≤ 2999 + 1 ∧
      (s 2999 9 false .LISTEN).host.params.dormantDelay ≤ min 240 (9 + 1) ∧
      ¬(s 2999 8 false .LISTEN).host.params.dormantDelay ≤ min 240 (8 + 1) ∧
      anySounding (withLanes .ARMED (.SOUNDING 2) (s 2999 9 true .LISTEN)) = true ∧ anySounding (s 0 0 true .LISTEN) = false := by
  decide

/-- R191: the REFUSED response to a RESET of undefined scope or wrong length leaves automatic entry pending, as a DONE one does; the
response to another command does not. -/
theorem test_refused_reset_bars_entry :
    let s : State := { synced with supply := { synced.supply with dormantRounds := 2999, quietMinutes := 9 } }
    let pin : StrapPins := { station := 0, endHigh := false, reachHigh := false }
    let pends (c : Instr) : Bool := (after .quietMinute (after c s)).supply.pendingEntry
    pends (.unknownCommand 0x10 [9]) = true ∧ pends (.resetEngine [0]) = true ∧ pends (.resetCounts []) = true ∧
      pends (.status [0]) = false ∧ (after .quietMinute (after (.status [0]) s)).supply.dormancy = .DORMANT ∧
      (after .quietMinute (after (.responseSent pin) (after (.unknownCommand 0x10 [9]) s))).supply.dormancy = .DORMANT := by
  decide

/-- A track with a verdict and one without, both gone since round 503. -/
def leaving (x : Track) : State := withTracks [x] 529

theorem witness_TrackExpiryReports :
    let judged : Track :=
      { trackOf 1 503 with
        phase := .BACK
        verdict := some { outcome := .ALARM, direction := .OUT, lane := some 0, loanTested := 0, held := true } }
    let inward : Track := { trackOf 1 503 with phase := .IN, lastD := some 23 }
    let open_ : Track := trackOf 1 503
    ([judged, inward, open_].all fun x =>
        decide (((leaving x).track.table.map Track.item).Nodup ∧
          (leaving x).track.table.filter
              (fun y => (leaving x).host.params.linger < ((leaving x).line.round - y.lastRead).toNat) = [x])) = true ∧
      judged.phase ≠ .OPEN ∧ inward.phase = .IN ∧ inward.lastD = some 23 ∧ 23 < 24 ∧ open_.phase = .OPEN ∧
      open_.lastD = none ∧ { open_ with startSide := .STREET, lastD := some 24 }.startSide = .STREET ∧
      { (leaving open_).field with coilH := .FAULT 3 }.coilH = .FAULT 3 ∧ (leaving open_).field.coilS = .OK := by decide

/-- The last track of a right lane expires beside a HUSHED machine, at either code; and a track that holds the lane stays. -/
theorem witness_TrackExpiryReports_rearm :
    let judged : Track :=
      { trackOf 1 503 with
        verdict := some { outcome := .ALARM, direction := .OUT, lane := some 0, loanTested := 0, held := true } }
    let s : State := withLanes .ARMED (.HUSHED true) (leaving judged)
    let held : State :=
      { s with line := { s.line with peerRight := { confirmed := .code .HUSH_OCC, lastSeen := none } } }
    let stays : State := { s with track := { s.track with table := [judged, trackOf 2 520] } }
    s.lanes.right = .HUSHED true ∧ s.supply.straps.isEnd = false ∧ (s.track.table.map Track.item).Nodup ∧
      s.host.params.linger < (s.line.round - judged.lastRead).toNat ∧ judged.verdict ≠ none ∧ judged.side = .RIGHT ∧
      held.line.peerRight.confirmed = .code .HUSH_OCC ∧ (stays.track.table.map Track.item).Nodup ∧
      ¬s.host.params.linger < (s.line.round - (trackOf 2 520).lastRead).toNat ∧
      (after .trackExpiry s).lanes.right = .ARMED ∧ (after .trackExpiry held).lanes.right = .HUSHED true ∧
      (after .trackExpiry stays).lanes.right = .HUSHED true := by decide

theorem witness_FadeAlarmAtExpiry :
    let x : Track := { trackOf 1 503 with lastD := some 24, startSide := .HALL }
    let s : State := leaving x
    (s.track.table.map Track.item).Nodup ∧
      s.track.table.filter (fun y => s.host.params.linger < (s.line.round - y.lastRead).toNat) = [x] ∧ x.verdict = none ∧
      x.startSide ≠ .STREET ∧ (s.host.params.tSide : Int) ≤ 24 ∧ (s.field.coilH = .OK ↔ s.field.coilS = .OK) ∧
      x.side = .RIGHT ∧ s.supply.straps.isEnd = false ∧ ~~~x.loan &&& s.host.params.loanMask ≠ 0 ∧
      (∀ e ∈ s.verdict.excuses, e.item ≠ x.item) ∧ s.notices.outbox.length < 8 ∧ s.lanes.right = .ARMED ∧
      (withLanes .ARMED (.HUSHED false) s).lanes.right = .HUSHED false ∧ { x with phase := .IN }.phase = .IN := by decide

theorem witness_FadeAlarmAtExpiry_sides :
    let x (side : Side) : Track := { trackOf 1 503 with lastD := some 24, phase := .IN, side := side }
    let s (side : Side) : State := atStation 4 (leaving (x side))
    ([Side.LEFT, .RIGHT, .UNSURE].all fun side =>
        decide ((s side).track.table.filter
          (fun y => (s side).host.params.linger < ((s side).line.round - y.lastRead).toNat) = [x side])) = true ∧
      (x .LEFT).side = .LEFT ∧ (s .LEFT).supply.straps.station.val ≠ 0 ∧ (s .LEFT).lanes.left = .ARMED ∧
      (withLanes (.HUSHED true) .ARMED (s .LEFT)).lanes.left = .HUSHED true ∧ (x .UNSURE).side = .UNSURE ∧
      (s .UNSURE).supply.straps.isEnd = false ∧ (x .UNSURE).peerAlarm = none ∧ (s .UNSURE).track.leftBroken = none ∧
      (s .UNSURE).track.rightBroken = none ∧ (s .UNSURE).lanes.right = .ARMED := by decide

theorem witness_SlotLayout :
    (0b1111000010000110 : BitVec 16).getLsbD 0 = false ∧
      6 ≤ (fieldOfBits 3 [(0b1111000010000110 : BitVec 16).getLsbD 1, (0b1111000010000110 : BitVec 16).getLsbD 2,
        (0b1111000010000110 : BitVec 16).getLsbD 3]).toNat ∧
      (1 : BitVec 16).getLsbD 0 = true ∧ (0b0111000010000000 : BitVec 16).getLsbD 15 = false := by decide

/-- A slot word with a right code, BRISK. -/
def wordOf (left right : LaneCode) : SlotWord :=
  { left := left, right := right, fieldClass := .FRESH, hall := .BROKEN, street := .CLEAR, calm := .BRISK }

theorem witness_CalmValueTaken :
    let s := atStation 5 synced
    s.supply.dormancy = .AWAKE ∧ s.line.state = .SYNCED ∧ (3 : Fin 16).val ≠ 5 ∧ (3 : Fin 16).val + 1 ≠ 5 ∧
      (3 : Fin 16).val ≠ 5 + 1 ∧ dormant.supply.dormancy = .DORMANT ∧ dormant.line.state = .SILENT ∧
      dormant.line.timing = .FOLLOWING ∧ withinReach dormant 1 = true ∧ dormant.access.peerCalm[(1 : Fin 16)] = .CALM ∧
      slotOutcome (slotBits (wordOf .QUIET .QUIET)) = .PRESENT (wordOf .QUIET .QUIET) ∧
      (wordOf .QUIET .QUIET).calm = .BRISK := by decide

/-- A DORMANT pedestal reads its right neighbour: held BRISK already, or ABSENT, no wake; from CALM, a wake. -/
theorem witness_CalmValueTaken_dormant :
    let bits := slotBits (wordOf .SOUND .SOUND)
    let brisk : State := { dormant with access := { dormant.access with peerCalm := Vector.replicate 16 .BRISK } }
    let clashed : State := { dormant with line := { dormant.line with state := .CLASHED } }
    (1 : Fin 16).val ≠ dormant.supply.straps.station.val ∧ (1 : Fin 16).val = dormant.supply.straps.station.val + 1 ∧
      brisk.access.peerCalm[(1 : Fin 16)] = .BRISK ∧ slotOutcome (BitVec.allOnes 16) = .ABSENT ∧
      clashed.line.state = .CLASHED ∧ clashed.access.peerCalm[(1 : Fin 16)] = .CALM ∧
      (after (.slotReceived 1 bits) brisk).supply.dormancy = .DORMANT ∧
      (after (.slotReceived 1 bits) brisk).line.peerRight = noPeer ∧
      (after (.slotReceived 1 bits) clashed).supply.dormancy = .AWAKE := by decide

theorem witness_PeerCodeConfirmed :
    let s := atStation 5 synced
    heldInReset s = false ∧ s.supply.dormancy = .AWAKE ∧ (inState .CLASHED).line.timing = .FOLLOWING ∧
      (4 : Fin 16).val + 1 = s.supply.straps.station.val ∧ (6 : Fin 16).val = s.supply.straps.station.val + 1 ∧
      s.supply.straps.isEnd = false := by decide

/-- Both neighbours' BRISK after CALM at a CALM pedestal, and a confirmed OCCUPIED without a change. -/
theorem witness_PeerCodeConfirmed_calm :
    let bits := slotBits (wordOf .OCCUPIED .QUIET)
    let n := atStation 5 synced
    let s : State :=
      { n with
        access := { n.access with cadence := .CALM, quietRounds := 7 }
        supply := { n.supply with dormantRounds := 9, pendingEntry := true } }
    let told : State :=
      { s with
        access := { s.access with peerCalm := Vector.replicate 16 .BRISK }
        line := { s.line with peerRight := { confirmed := .ABSENT, lastSeen := some (.code .OCCUPIED) } } }
    s.access.peerCalm[(4 : Fin 16)] = .CALM ∧ withinReach s 4 = true ∧ withinReach s 6 = true ∧
      (after (.slotReceived 4 bits) s).access.cadence = .BRISK ∧ (after (.slotReceived 6 bits) s).access.quietRounds = 0 ∧
      (after (.slotReceived 6 bits) s).supply.pendingEntry = false ∧
      (after (.slotReceived 6 bits) told).access.cadence = .CALM ∧
      (after (.slotReceived 6 bits) told).supply.dormantRounds = 0 := by decide

theorem witness_PeerCodeActsOnLane :
    let seen (c : LaneCode) (s : State) : State :=
      { s with line := { s.line with peerRight := { confirmed := .code .QUIET, lastSeen := some (.code c) } } }
    let s := atStation 5 synced
    slotOutcome (slotBits (wordOf .SOUND .QUIET)) = .PRESENT (wordOf .SOUND .QUIET) ∧
      slotOutcome (slotBits (wordOf .HUSH_CLEAR .QUIET)) = .PRESENT (wordOf .HUSH_CLEAR .QUIET) ∧
      slotOutcome (slotBits (wordOf .OCCUPIED .QUIET)) = .PRESENT (wordOf .OCCUPIED .QUIET) ∧
      (seen .SOUND s).line.peerRight.lastSeen = some (.code .SOUND) ∧ (seen .SOUND s).lanes.right = .ARMED ∧
      (seen .SOUND s).line.peerRight.confirmed ≠ .code .SOUND ∧ isHushCode (.code .QUIET) = false ∧
      (withLanes .ARMED (.SOUNDING 4) (seen .HUSH_CLEAR s)).lanes.right = .SOUNDING 4 := by decide

/-- The left lane, a HUSHED machine, and a code that becomes ABSENT. -/
theorem witness_PeerCodeActsOnLane_left :
    let s (seen : PeerCode) (m : LaneState) : State :=
      let n := withLanes m .ARMED (atStation 5 synced)
      { n with line := { n.line with peerLeft := { confirmed := .code .HUSH_OCC, lastSeen := some seen } } }
    let silent : BitVec 16 := BitVec.allOnes 16
    (4 : Fin 16).val + 1 = (s .ABSENT .ARMED).supply.straps.station.val ∧ slotOutcome silent = .ABSENT ∧
      (s .ABSENT (.HUSHED false)).lanes.left = .HUSHED false ∧
      slotOutcome (slotBits (wordOf .QUIET .HUSH_CLEAR)) = .PRESENT (wordOf .QUIET .HUSH_CLEAR) ∧
      (s (.code .HUSH_CLEAR) (.SOUNDING 2)).lanes.left = .SOUNDING 2 ∧
      (after (.slotReceived 4 silent) (s .ABSENT (.HUSHED false))).lanes.left = .ARMED ∧
      (after (.slotReceived 4 (slotBits (wordOf .QUIET .HUSH_CLEAR))) (s (.code .HUSH_CLEAR) (.SOUNDING 2))).lanes.left =
        .SOUNDING 2 := by decide

theorem witness_OwnSlotReadBack :
    let marked : State := { synced with line := { synced.line with clashMark := true } }
    synced.line.state = .SYNCED ∧ (0 : BitVec 16) ≠ slotBits synced.line.slotWord ∧ synced.line.clashMark = false ∧
      marked.line.clashMark = true := by decide

theorem witness_NoNeighboursBothGranted :
    let word : SlotWord := wordOf .QUIET .QUIET
    let s : State :=
      { atStation 3 synced with line := { synced.line with slots := synced.line.slots.set 4 (.PRESENT word) } }
    let t : State :=
      { atStation 4 synced with line := { synced.line with slots := synced.line.slots.set 3 (.PRESENT word) } }
    withinReach s t.supply.straps.station = true ∧ withinReach t s.supply.straps.station = true ∧
      (~~~0b11000 : BitVec 20).getLsbD (3 + 3 / 7) = false ∧ (~~~0b11000 : BitVec 20).getLsbD (4 + 4 / 7) = false ∧
      s.line.slots[t.supply.straps.station] = .PRESENT word ∧ word.fieldClass = t.line.fieldClass ∧
      t.line.slots[s.supply.straps.station] = .PRESENT word ∧ word.fieldClass = s.line.fieldClass := by decide

theorem witness_NoNeighboursBothGranted_steps :
    (∃ t, exec (.requestFieldEnd (~~~0b11000)) (atStation 3 synced) = .next t) ∧
      ∃ t, exec (.requestFieldEnd (~~~0b11000)) (atStation 4 synced) = .next t := ⟨⟨_, rfl⟩, ⟨_, rfl⟩⟩

theorem witness_GrantRuleApplied :
    let s : State := atStation 15 { synced with access := { synced.access with requests := some true } }
    heldInReset s = false ∧ s.line.state = .SYNCED ∧ s.access.requests = some true ∧ 15 + 15 / 7 < 20 ∧
      (~~~(1 <<< 16) : BitVec 20).getLsbD (14 + 14 / 7) = false := by decide

/-- The data bits of the slot in which a notice of station 9 was placed. -/
def heard (body : NoticeBody) : List Bool := (List.range 630).map fun d => (heardFrom 9 body).getD (d + d / 7) true

theorem witness_NoticeSlotTaken :
    let own := heardFrom 0 (.EXCUSE [{ item := 1, life := 1 }])
    let bad := List.replicate 720 false
    let data (levels : List Bool) : List Bool := (List.range 630).map fun d => levels.getD (d + d / 7) true
    synced.notices.inFlight = .NONE ∧ (inState .CLASHED).line.timing = .FOLLOWING ∧
      (inState .CLASHED).supply.dormancy = .AWAKE ∧ dormant.line.state = .SILENT ∧ (List.replicate 720 true).length = 720 ∧
      bad.length = 720 ∧ (data bad).any (fun b => !b) = true ∧ noticeBody (data bad) = none ∧ own.length = 720 ∧
      noticeBody (data own) = some (.EXCUSE [{ item := 1, life := 1 }]) ∧
      noticeStation (data own) = synced.supply.straps.station := by
  decide +kernel

theorem witness_OwnNoticeSlotEnds :
    let n : Notice := { body := .EXCUSE [{ item := 1, life := 1 }], built := 0 }
    let s : State := { synced with notices := { outbox := [n], inFlight := .PLACING } }
    let placed := noticeBits s.line.noticeClass s.supply.straps.station n.body
    let sent := placeData 720 placed
    let spoilt := sent.set 5 false
    let lost := sent.set 0 false
    let differs (levels : List Bool) (i : Nat) : Bool := placed.getD i true && !levels.getD (i + i / 7) true
    let deferred : State := { s with line := { s.line with noticeClass := .DEFERRED } }
    placed.length ≤ 630 ∧ sent.length = 720 ∧ (List.range placed.length).all (fun i => !differs sent i) = true ∧
      (List.range 5).all (fun i => !differs spoilt i) = true ∧ (List.range placed.length).any (differs spoilt) = true ∧
      spoilt.length = 720 ∧ (noticeBits deferred.line.noticeClass 0 n.body).getD 0 false = true ∧ lost.getD 0 true = false ∧
      (sent.take 40).length < 720 ∧ (List.range placed.length).all (fun i => !differs (sent.take 40) i) = true ∧
      (List.range 5).all (fun i => !differs (spoilt.take 40) i) = true ∧
      (List.range placed.length).any (differs (spoilt.take 40)) = true ∧
      (after (.noticeSlotEnd 0 (spoilt.take 40)) s).notices.inFlight = .FAILED ∧
      (after (.noticeSlotEnd 0 (lost.take 40)) deferred).notices.inFlight = .LOST := by
  decide +kernel

/-- R90, R113, worked sequence 6.9: a body bit read back wrong counts at its bit time, and still counts when a mark then cuts the
slot; the framing error counts once more, and the notice stays at the head. -/
theorem test_readback_failure_in_cut_slot :
    let n : Notice := { body := .EXCUSE [{ item := 1, life := 1 }], built := 0 }
    let s : State := { synced with notices := { outbox := [n], inFlight := .PLACING } }
    let read := ((placeData 720 (noticeBits .FRESH 0 n.body)).set 5 false).take 40
    let failed := after (.noticeSlotEnd 8 read) s
    let cut := after (.markEnd 6100 11 plain) failed
    failed.host.errors.lineErrors = 1 ∧ failed.driverInUse = false ∧ cut.host.errors.lineErrors = 2 ∧
      cut.notices = { outbox := [n], inFlight := .NONE } := by decide +kernel

theorem witness_ReceivedNoticeActs :
    let e : Sighting := { item := 1, best := 40, coil := .S }
    let v (lane : BitVec 4) : VerdictEntry := { item := 1, lane := lane, verdict := 1 }
    let x (life : BitVec 8) : ExcuseNote := { item := 1, life := life }
    (heardFrom 9 (.SIGHTING [e])).length = 720 ∧ noticeStation (heard (.SIGHTING [e])) = 9 ∧
      noticeBody (heard (.SIGHTING [e])) = some (.SIGHTING [e]) ∧ noticeBody (heard (.VERDICT [v 8])) = some (.VERDICT [v 8]) ∧
      noticeBody (heard (.VERDICT [v 15])) = some (.VERDICT [v 15]) ∧
      noticeBody (heard (.EXCUSE [x 0])) = some (.EXCUSE [x 0]) ∧ noticeBody (heard (.EXCUSE [x 9])) = some (.EXCUSE [x 9]) ∧
      (atStation 10 (withTracks [trackOf 1 5] 5)).track.table.any (fun y => y.item = e.item) = true ∧
      (9 : Fin 16).val + 1 = (atStation 10 synced).supply.straps.station.val ∧
      (9 : Fin 16).val = (atStation 8 synced).supply.straps.station.val + 1 ∧
      (v 8).lane.toNat = (atStation 8 synced).supply.straps.station.val ∧
      (v 8).lane.toNat + 1 = (atStation 9 synced).supply.straps.station.val := by decide +kernel

/-- An untracked item, cached and not, with a cache that has room and one that is full. -/
theorem witness_ReceivedNoticeActs_cache :
    let entry (item : ItemCode) : CacheEntry :=
      { item := item, left := none, right := some { strength := 9, coil := .H, received := 5 } }
    let full := (List.range 32).map fun i => entry (BitVec.ofNat 64 (i + 2))
    synced.track.table.all (fun x => x.item ≠ 1) = true ∧ [entry 1].any (fun c => c.item = 1) = true ∧
      full.all (fun c => c.item ≠ 1) = true ∧ full.length = 32 ∧ synced.track.cache.length < 32 := by decide

theorem witness_NoticeRoundTrip :
    1 ≤ ([{ item := 1, life := 1 }] : List ExcuseNote).length ∧
      (List.replicate 8 ({ item := 1, lane := 2, verdict := 1 } : VerdictEntry)).length ≤ 8 := by decide

theorem witness_ReplyWindowClassed :
    let s := inWindow .H (searchWith 2 0 0 0 [7]) synced
    s.field.window = some { half := .H, sweep := searchWith 2 0 0 0 [7] } ∧ 1 ≤ 2 ∧ 1 ≤ 1 ∧
      (inWindow .S (searchWith 1 0 0 0 [7]) synced).field.window = some { half := .S, sweep := searchWith 1 0 0 0 [7] } ∧ (0 : BitVec 16) ≠ tagCrc 5 1 ∧
      max 0 (min 127 (11 : Int)) < s.host.params.readFloor ∧ (7 : ItemCode) ∈ ([7] : List ItemCode) := by decide +kernel

theorem witness_ReadUpdatesTrack :
    let s := inWindow .S (searchWith 2 0 0 0 []) (withTracks [trackOf 5 90] 100)
    s.field.window = some { half := .S, sweep := searchWith 2 0 0 0 [] } ∧ (5 : ItemCode) ∉ ([] : List ItemCode) ∧
      s.track.table.any (fun x => x.item = 5) = true ∧
      s.host.params.readFloor ≤ (BitVec.ofNat 7 (max 0 (min 127 (12 : Int))).toNat).toNat := by decide

/-- A full table, its item 7 of the oldest last-read round. -/
def fullTable : List Track := (List.range 48).map fun i => trackOf (BitVec.ofNat 64 i) (if i = 7 then 80 else 90)

theorem witness_ReadCreatesTrack :
    let s := inWindow .H (searchWith 2 0 0 0 []) (withTracks [trackOf 5 90] 100)
    let full := inWindow .H (searchWith 2 0 0 0 []) (withTracks fullTable 100)
    s.track.table.all (fun x => x.item ≠ 99) = true ∧ s.track.table.length < 48 ∧
      (full.track.table.map Track.item).Nodup ∧ full.track.table.all (fun x => x.item ≠ 99) = true ∧
      full.track.table.length = 48 ∧
      full.track.table = fullTable.take 7 ++ trackOf 7 80 :: fullTable.drop 8 ∧
      (fullTable.take 7).all (fun y => (full.line.round - y.lastRead).toNat < (full.line.round - 80).toNat) = true ∧
      (fullTable.drop 8).all (fun y => (full.line.round - y.lastRead).toNat ≤ (full.line.round - 80).toNat) = true ∧
      (trackOf 7 80).verdict = none ∧ (trackOf 7 80).phase = .OPEN ∧ (trackOf 7 80).lastD = none := by decide +kernel

theorem witness_FollowCallEnds :
    let s := inWindow .H (.follow { waiting := [5, 6], called := [], answered := [] }) (withTracks [trackOf 5 90, trackOf 6 90] 100)
    s.field.window = some { half := .H, sweep := .follow { waiting := [5, 6], called := [], answered := [] } } ∧
      (BitVec.ofNat 7 (max 0 (min 127 (11 : Int))).toNat).toNat < s.host.params.readFloor ∧
      s.host.params.readFloor ≤ (BitVec.ofNat 7 (max 0 (min 127 (200 : Int))).toNat).toNat ∧
      s.track.table.any (fun x => x.item = 5) = true ∧ ([] : List ItemCode) = [] := by decide

/-- The last call answered, at a lone track in an S half-sweep: the window ends with it. -/
theorem test_last_call_ends_window :
    let s := inWindow .S (.follow { waiting := [5], called := [], answered := [] }) (withTracks [trackOf 5 90] 100)
    (after (.followCallEnd (.reply 5 1 (tagCrc 5 1) 40) good) s).field.window = none ∧
      (after (.followCallEnd (.reply 5 1 (tagCrc 5 1) 40) good) s).notices.outbox =
        [{ body := .SIGHTING [{ item := 5, best := 40, coil := .S }], built := 100 }] := by decide +kernel

theorem witness_SearchHalfSweepEnds :
    let s := inWindow .H (searchWith 1 3 1 2 [5]) (withTracks [trackOf 5 100] 100)
    s.field.window = some { half := .H, sweep := .search { toClose := 1, closed := 3, collided := 1, empty := 2, read := [5] } } ∧
      s.field.coilS = .OK ∧ good.sInBand = true := by decide

/-- A follow that called two tracks, one of which answered: the other decays, and is called first on the S coil. -/
theorem witness_SearchHalfSweepEnds_follow :
    let x (item : ItemCode) (r : Round) : Track := { trackOf item r with sH := some 40 }
    let s := inWindow .H (.follow { waiting := [], called := [5, 6], answered := [5] }) (withTracks [x 5 100, x 6 90] 100)
    s.track.table.any (fun x => x.verdict = none) = true ∧ s.field.coilS = .OK ∧
      (after (.halfSweepTimeLimit good) s).track.table.map Track.sH = [some 40, some 32] ∧
      (after (.halfSweepTimeLimit good) s).field.window =
        some { half := .S, sweep := .follow { waiting := [6, 5], called := [], answered := [] } } := by decide

/-- S halves with a track that was not read, of a search and of a follow: its strength on S falls from 40 to 32 and its balance
is stored. -/
theorem witness_SearchHalfSweepEnds_second :
    let x (item : ItemCode) : Track := { trackOf item 90 with sS := some 40, sH := some 30 }
    let s (w : Sweep) : State := inWindow .S w (withTracks [x 5, x 6] 100)
    let search := searchWith 1 3 1 2 [5]
    let follow : Sweep := .follow { waiting := [], called := [6], answered := [] }
    ((s search).track.table.map Track.item).Nodup ∧ (s search).field.coilS = .OK ∧ (6 : ItemCode) ∉ ([5] : List ItemCode) ∧
      ([search, follow].all fun w =>
        (after (.halfSweepTimeLimit good) (s w)).track.table.map (fun x => (x.sS, x.lastD)) =
          [(some 40, none), (some 32, some 2)]) = true := by decide +kernel

theorem witness_DriveCheckMarksCoil :
    let s (c : CoilState) : State :=
      let w := inWindow .H (.follow { waiting := [], called := [], answered := [] }) (withTracks [] 300)
      { w with field := { w.field with coilS := c } }
    (s .OK).track.table = [] ∧ (s .OK).field.coilS = .OK ∧ ((s .OK).line.round - 51).toNat < 250 ∧
      250 ≤ ((s .OK).line.round - 50).toNat ∧ (s (.FAULT 50)).field.coilS = .FAULT 50 ∧
      (inWindow .H (searchWith 0 4 0 4 []) (s .OK)).field.window = some { half := .H, sweep := searchWith 0 4 0 4 [] } := by
  decide

theorem witness_DriveCheckMarksCoil_start :
    let s (c : CoilState) : State :=
      let w := withTracks [] 300
      { w with field := { w.field with coilH := c }, access := { w.access with grant := true } }
    let bad : RoundInput := { plain with sense := { hInBand := false, sInBand := true } }
    restNotDue (s .OK) ∧ (s .OK).field.window = none ∧ (s .OK).track.table = [] ∧ (s .OK).lanes.left = .ARMED ∧
      (s .OK).lanes.right = .ARMED ∧ (s .OK).field.coilS = .OK ∧ bad.sense.sInBand = true ∧ bad.sense.hInBand = false ∧
      (s .OK).line.state = .SYNCED ∧ (s .OK).access.grant = true ∧ (s (.FAULT 52)).field.coilH = .FAULT 52 ∧
      ((s .OK).line.round + 1 - 52).toNat < 250 ∧ 250 ≤ ((s .OK).line.round + 1 - 51).toNat := by decide

theorem witness_WindowEndGivesVerdict :
    let x : Track :=
      { trackOf 5 100 with
        loan := 1, sH := some 100, sS := some 140, startSide := .HALL, mark := .read 35 .S }
    let s := inWindow .S (.follow { waiting := [], called := [5], answered := [5] }) (withTracks [x] 100)
    s.supply.straps.station.val = 0 ∧ s.supply.straps.isEnd = false ∧ s.field.coilH = .OK ∧ s.field.coilS = .OK ∧
      s.track.table = [x] ∧ x.item ∈ ([5] : List ItemCode) ∧ x.mark = .read 35 .S ∧ x.verdict = none ∧ x.phase = .OPEN ∧
      x.side = .RIGHT ∧ x.startSide ≠ .notSet ∧ x.startSide ≠ .STREET ∧
      (s.host.params.tCross : Int) ≤ (x.sS.getD 0 : Int) - (x.sH.getD 0 : Int) ∧
      ~~~x.loan &&& s.host.params.loanMask = 0 ∧ s.notices.outbox.length < 8 := by decide

theorem witness_WindowEndGivesVerdict_left :
    let x : Track := { trackOf 5 100 with side := .LEFT, sS := some 240, mark := .read 60 .S }
    let w := inWindow .S (searchWith 1 3 0 2 [5]) (withTracks [x] 100)
    let s : State :=
      { w with
        field := { w.field with coilH := .FAULT 3 }
        supply := { w.supply with straps := { station := 6, isEnd := true, reach := 1 } } }
    s.supply.straps.station.val ≠ 0 ∧ s.supply.straps.isEnd = true ∧ s.field.coilH = .FAULT 3 ∧ s.field.coilS = .OK ∧
      s.track.table = [x] ∧ x.item ∈ ([5] : List ItemCode) ∧ x.mark = .read 60 .S ∧ x.verdict = none ∧ x.phase = .OPEN ∧
      x.side = .LEFT ∧ x.sS = some 240 ∧ s.host.params.tSingle ≤ 240 ∧ ~~~x.loan &&& s.host.params.loanMask ≠ 0 ∧
      (∀ e ∈ s.verdict.excuses, e.item ≠ x.item) ∧ s.lanes.left = .ARMED ∧ s.notices.outbox.length < 7 := by decide

theorem witness_WindowEndGivesVerdict_unsure :
    let x : Track :=
      { trackOf 5 100 with side := .UNSURE, sH := some 100, sS := some 140, startSide := .HALL, mark := .read 35 .S }
    let s := inWindow .S (.follow { waiting := [5], called := [], answered := [] }) (atStation 14 (withTracks [x] 100))
    s.supply.straps.station.val ≠ 0 ∧ s.supply.straps.station.val ≠ 15 ∧ s.supply.straps.isEnd = false ∧
      s.field.coilH = .OK ∧ s.field.coilS = .OK ∧ 0 < s.host.params.mSide ∧ s.track.table = [x] ∧
      x.mark = .read 35 .S ∧ x.verdict = none ∧ x.phase = .OPEN ∧ x.side = .UNSURE ∧ x.pL = none ∧ x.pR = none ∧
      x.peerAlarm = none ∧ s.track.leftBroken = none ∧ s.track.rightBroken = none ∧ x.startSide ≠ .notSet ∧
      x.startSide ≠ .STREET ∧ (s.host.params.tCross : Int) ≤ (x.sS.getD 0 : Int) - (x.sH.getD 0 : Int) ∧
      ~~~x.loan &&& s.host.params.loanMask ≠ 0 ∧ (∀ e ∈ s.verdict.excuses, e.item ≠ x.item) ∧ s.lanes.left = .ARMED ∧
      s.lanes.right = .ARMED ∧ s.notices.outbox.length < 7 := by decide

theorem witness_SmoothedStrength :
    let s : State :=
      { synced with host := { synced.host with params := { synced.host.params with readFloor := 0 } } }
    readKept s [] { item := 1, loan := 0, v := 0 } = true ∧ 1 ≤ 1 ∧ 508 ≤ 508 ∧ 4 * (127 : BitVec 7).toNat = 508 := by decide

theorem witness_TwoCoilVerdict :
    paramsInRange synced.host.params ∧ (trackOf 5 1).startSide = .notSet ∧ (trackOf 5 1).phase = .OPEN ∧
      (1 : Int) - 41 ≤ -(synced.host.params.tCross : Int) ∧ (synced.host.params.tSide : Int) ≤ 24 ∧
      (synced.host.params.tCross : Int) ≤ 40 := by decide

theorem witness_TwoCoilVerdict_sides :
    let s := atStation 4 synced
    let p (v : Strength) : Option PeerStrength := some { strength := v, coil := .H, received := 0 }
    0 < s.host.params.mSide ∧ s.supply.straps.station.val ≠ 0 ∧ s.supply.straps.isEnd = false ∧
      (s.host.params.mSide : Int) ≤ 50 - 0 ∧ (s.line.round - 0).toNat ≤ s.host.params.peerAge ∧
      (judgeTwoCoil s { trackOf 1 0 with side := .UNSURE, pR := p 50 }).track.side = .RIGHT ∧
      (judgeSingle s .H { trackOf 1 0 with side := .UNSURE, pL := p 50 }).track.side = .LEFT ∧
      s.host.params.tSingle ≤ 240 ∧ (trackOf 1 0).verdict = none ∧
      (s.line.round - 0).toNat ≤ 24 ∧ s.track.leftBroken = none := by decide

/-- A PLAYING sounder with an entry at some index and samples left. -/
def playing (i : Fin 16) (left : Nat) (e : Option Latched) : State :=
  { synced with
    lanes := { synced.lanes with right := .SOUNDING 9 }
    sounder := { synced.sounder with playing := true, position := i, samplesLeft := left, latched := e } }

theorem witness_SounderEntryStarts :
    let rest : Latched := { nA := none, nB := none, amplitude := none }
    let wiped : State :=
      { playing 15 0 (some rest) with
        sounder :=
          { (playing 15 0 (some rest)).sounder with
            table := Vector.replicate 16 { toneA := 0, toneB := 0, level := none, duration := 0 } } }
    heldInReset (playing 0 0 (some rest)) = false ∧ (playing 0 0 (some rest)).sounder.playing = true ∧
      (playing 0 0 (some rest)).sounder.latched ≠ none ∧ (playing 0 0 none).sounder.latched = none ∧
      (playing 0 0 none).sounder.samplesLeft = 0 ∧ (playing 0 1 none).sounder.samplesLeft ≠ 0 ∧
      synced.sounder.table[(1 : Fin 16)].duration ≠ 0 ∧ synced.sounder.table[(4 : Fin 16)].duration = 0 ∧
      wiped.sounder.table[(15 : Fin 16) + 1].duration = 0 := by decide

theorem witness_ToneValues :
    let e (below : Nat) : CadenceEntry := { toneA := 4000, toneB := 0, level := some below, duration := 1 }
    (e 30).level = some 30 ∧ 30 % 2 = 0 ∧ (e 30).toneA ≤ 4000 ∧ (e 30).toneB ≤ 4000 ∧ 30 / 2 + 8 ≤ 23 ∧
      24 ≤ 30 / 2 + 9 ∧ (e 0).toneA ≠ 0 ∧ (e 0).toneB = 0 ∧ { e 0 with level := none }.level = none ∧ 255 < 256 := by decide

theorem witness_SounderSampleGiven :
    let rest : Latched := { nA := none, nB := none, amplitude := none }
    synced.sounder.playing = false ∧ (playing 0 1 none).sounder.playing = true ∧ (playing 0 1 none).sounder.samplesLeft ≠ 0 ∧
      (playing 0 1 none).sounder.latched = none ∧ (playing 0 1 (some rest)).sounder.latched = some rest := by decide

/-- A station whose beams were last sampled as given, both confirmed CLEAR. -/
def beamsSeen (hall street : Option Beam) (s : State) : State :=
  { s with beams := { s.beams with hall := { confirmed := .CLEAR, latest := hall }, street := { confirmed := .CLEAR, latest := street } } }

theorem witness_FootfallFollowsTable :
    heldInReset (beamsSeen (some .BROKEN) none synced) = false ∧
      (beamsSeen (some .BROKEN) none synced).supply.straps.isEnd = false := by decide

theorem witness_BeamSampleHandedOn :
    let end_ : State := { synced with supply := { synced.supply with straps := { synced.supply.straps with isEnd := true } } }
    end_.supply.straps.isEnd = true ∧ synced.supply.straps.isEnd = false ∧
      (beamsSeen (some .BROKEN) none synced).beams.hall.latest = some .BROKEN ∧
      (beamsSeen (some .BROKEN) none synced).beams.hall.confirmed = .CLEAR ∧ synced.supply.dormancy = .AWAKE ∧
      (beamsSeen (some .BROKEN) none dormant).supply.dormancy = .DORMANT ∧
      (beamsSeen (some .BROKEN) none dormant).line.state = .SILENT := by decide

theorem witness_ClearAndFlash :
    let released (latest : Option Bool) : State :=
      { synced with lanes := { synced.lanes with clear := { pressed := false, latest := latest } } }
    (released (some true)).lanes.clear.latest = some true ∧ (released (some true)).lanes.clear.pressed = false ∧
      synced.lanes.clear.pressed = true ∧ (released none).lanes.clear.latest = none ∧
      (atStation 1 (withLanes (.HUSHED true) (.HUSHED false) synced)).lanes.left = .HUSHED true ∧
      (atStation 1 synced).supply.straps.station.val ≠ 0 ∧ isHushed (laneState synced .left) = false := by decide

/-- A response being sent, with the reset it carries. -/
def sending (scope : Option ResetScope) : State :=
  { synced with
    host :=
      { synced.host with
        outstanding := some { frame := { code := 0x90, payload := [] }, reset := scope }, transmitter := .SENDING_RESPONSE } }

theorem witness_TransmissionEnds :
    let report : State := { synced with host := { synced.host with transmitter := .SENDING_REPORT } }
    let waiting : State := { sending none with host := { (sending none).host with transmitter := .SENDING_REPORT } }
    (sending none).host.transmitter = .SENDING_RESPONSE ∧
      ((sending (some .FULL)).host.outstanding.map Response.reset) = some (some .FULL) ∧
      ((sending (some .ENGINE)).host.outstanding.map Response.reset) = some (some .ENGINE) ∧
      ((sending (some .COUNTS)).host.outstanding.map Response.reset) = some (some .COUNTS) ∧
      report.host.outstanding = none ∧ report.host.transmitter = .SENDING_REPORT ∧ waiting.host.outstanding ≠ none := by decide

theorem witness_FrameBytesAreCommands :
    hostFrameOf (.hush [3]) = some { code := 0x0D, payload := [3] } ∧ ([3] : List Byte).length ≤ 120 ∧
      (List.replicate 120 (0 : Byte)).length ≤ 120 ∧ synced.host.receiver = .HUNT := by decide

theorem witness_BadFramesDiscarded :
    let at_ (r : Receiver) : State := { synced with host := { synced.host with receiver := r } }
    hostFrameOf (.hostFrameBusy 1 []) = some { code := 1, payload := [] } ∧ (sending none).host.outstanding ≠ none ∧
      (1 : Byte) ≠ crc8 [0, 1] ∧ (at_ .LENGTH).host.receiver = .LENGTH ∧ 120 < (121 : Byte).toNat ∧
      (at_ .CHECK).host.receiver ≠ .HUNT ∧ (at_ .HUNT).host.receiver = .HUNT ∧ (0xC2 : Byte) ≠ 0xC3 := by decide +kernel

theorem witness_FrameWakesDormant :
    hostFrameOf (.status []) = some { code := 2, payload := [] } ∧ heldInReset dormant = false ∧
      dormant.supply.dormancy = .DORMANT ∧ dormant.line.state = .SILENT ∧ dormant.host.outstanding = none := by decide

theorem witness_CommandsRefused :
    takesCommand synced ∧ 16 < (17 : Byte).toNat ∧ hostFrameOf (.status [0]) = some { code := 2, payload := [0] } ∧
      hostFrameOf (.cadence []) = some { code := 14, payload := [] } ∧
      hostFrameOf (.resetFull [0]) = some { code := 16, payload := [1, 0] } ∧ (0 : Byte) ≠ 1 ∧ (4 : Byte) ≠ 3 ∧
      (2 : Byte) ≠ 1 ∧ 15 < (16 : Byte).toNat := by decide

theorem witness_ReadCommandsAnswer :
    takesCommand synced ∧ synced.line.state ≠ .SILENT ∧ synced.supply.straps.isEnd = false ∧
      { synced with supply := { synced.supply with straps := { synced.supply.straps with isEnd := true } } }.supply.straps.isEnd =
        true ∧
      paramValue synced.host.params 1 = some 1 ∧ paramValue synced.host.params 15 = some 0 ∧
      { trackOf 1 1 with sH := some 508 }.sH.getD 0 = 508 ∧ 508 < 512 ∧ (trackOf 1 1).peerAlarm = none ∧
      { trackOf 1 1 with peerAlarm := some 14 }.peerAlarm = some 14 ∧ 14 < 16 := by decide

theorem witness_ValuesStoredInRange :
    takesCommand synced ∧ paramsInRange synced.host.params ∧ 1 ≤ (1 : Byte).toNat ∧ (15 : Byte).toNat ≤ 15 ∧
      storedLevel 0x80 = none ∧ storedLevel 0xE2 = some 30 ∧ storedLevel 0 = some 0 ∧ (0xE2 : Byte).toInt = -30 := by decide

theorem witness_TakeCommandsAnswer :
    takesCommand synced ∧ synced.supply.straps.isEnd = false ∧ ((0 : Byte) = 0 ∨ (0 : Byte) = 1) := by decide

/-- A full excuse list whose fourth entry expires soonest. -/
def fullExcuses : List ExcuseEntry :=
  (List.range 64).map fun i => { item := BitVec.ofNat 64 i, life := if i = 3 then 2 else 5 }

theorem witness_ExcuseCommandsAct :
    takesCommand synced ∧ synced.notices.outbox.length < 8 ∧ (255 : Byte) ≠ 0 ∧ fullExcuses.length = 64 ∧
      (fullExcuses.map ExcuseEntry.item).Nodup ∧
      fullExcuses = fullExcuses.take 3 ++ { item := 3, life := 2 } :: fullExcuses.drop 4 ∧
      (∀ e ∈ fullExcuses.take 3, 2 < e.life) ∧ (∀ e ∈ fullExcuses.drop 4, 2 ≤ e.life) ∧
      (∀ e ∈ fullExcuses, e.item ≠ 99) ∧ ∃ e ∈ fullExcuses, e.item = 5 := by decide +kernel

theorem witness_ExcuseCommandsAct_outbox :
    let v : Notice := { body := .VERDICT [], built := 1 }
    let n : Notice := { body := .SIGHTING [], built := 1 }
    let box := n :: v :: n :: List.replicate 5 v
    let s : State := { synced with notices := { outbox := box, inFlight := .PLACING } }
    s.notices.outbox.length = 8 ∧ box = [n] ++ [v] ++ n :: List.replicate 5 v ∧
      [n].length = (if s.notices.inFlight = .NONE then 0 else 1) ∧ (n :: List.replicate 7 v).length = 8 := by decide

theorem witness_HushRestAndReset :
    let s := atStation 1 (withLanes (.SOUNDING 3) .ARMED synced)
    takesCommand s ∧ s.supply.straps.station.val ≠ 0 ∧ anySounding s = true ∧ anySounding synced = false ∧
      takesCommand synced ∧ synced.supply.straps.station.val = 0 ∧ 1 ≤ (1 : Byte).toNat ∧ (3 : Byte).toNat ≤ 3 := by decide

end Sys2Proof.Machine.Tests
end

section
/-! PROOFS. Properties that every step keeps, from what the primitive changes keep: first through tracks and verdicts, then
through field windows, the host's frames and the round start. An invariant is then a short proof for each primitive change. -/

namespace Sys2Proof.Machine

/-! ## Tracks and verdicts -/

/-- A property kept by the primitive changes that tracks, lane machines and verdicts are made of. -/
structure KeptByTracks (P : State → Prop) : Prop where
  keepsTrack : ∀ f s, P s → P (s.onTrack f)
  keepsRecord : ∀ b s, P s → P (makeRecord b s)
  keepsNotice : ∀ b s, P s → P (queueNotice b s)
  keepsErrors : ∀ f s, P s → P (onErrors f s)
  keepsCounts : ∀ f s, P s → P (onCounts f s)
  keepsLane : ∀ l st s, st = .ARMED ∨ st = .HUSHED true ∨ st = .SOUNDING s.params.soundLimit → P s → P (setLane l st s)

section
variable {P : State → Prop} (k : KeptByTracks P)
include k

theorem KeptByTracks.rearm_keeps (l : LaneSide) {s : State} (h : P s) : P (rearm l s) := by
  unfold rearm
  split
  · exact k.keepsLane l _ s (.inl rfl) h
  · exact h

theorem KeptByTracks.rearmBoth_keeps {s : State} (h : P s) : P (rearmBoth s) :=
  k.rearm_keeps .right (k.rearm_keeps .left h)

theorem KeptByTracks.enterSounding_keeps (l : LaneSide) (cause : LaneCause) {s : State} (h : P s) :
    P (enterSounding l cause s) :=
  k.keepsRecord _ _ (k.keepsLane l _ s (.inr (.inr rfl)) h)

theorem KeptByTracks.hushLane_keeps (l : LaneSide) (cause : LaneCause) {s : State} (h : P s) : P (hushLane l cause s) := by
  unfold hushLane
  split
  · exact k.rearm_keeps l (k.keepsRecord _ _ (k.keepsLane l _ s (.inr (.inl rfl)) h))
  · exact h

theorem KeptByTracks.hushBoth_keeps (cause : LaneCause) {s : State} (h : P s) : P (hushBoth cause s) :=
  k.hushLane_keeps .right cause (k.hushLane_keeps .left cause h)

theorem KeptByTracks.takePeerCode_keeps (l : LaneSide) (old new : PeerCode) {s : State} (h : P s) :
    P (takePeerCode l old new s) := by
  unfold takePeerCode
  split
  · split
    · exact k.enterSounding_keeps l _ h
    · exact h
  · split
    · exact k.hushLane_keeps l _ h
    · exact h
  · exact k.rearm_keeps l h

theorem KeptByTracks.ownAlarm_keeps (l : LaneSide) {s : State} (h : P s) : P (ownAlarm l s).1 := by
  unfold ownAlarm
  split
  · exact k.enterSounding_keeps l _ h
  · exact k.keepsLane l _ s (.inr (.inr rfl)) h
  · exact h

theorem KeptByTracks.ownAlarms_keeps (lanes : List LaneSide) {s : State} (h : P s) : P (ownAlarms lanes s).1 := by
  induction lanes generalizing s with
  | nil => exact h
  | cons l ls ih => exact ih (k.ownAlarm_keeps l h)

theorem KeptByTracks.countVerdict_keeps (o : Outcome) (side : Side) {s : State} (h : P s) : P (countVerdict o side s) := by
  unfold countVerdict
  split
  · exact h
  · exact k.keepsCounts _ s h

theorem KeptByTracks.verdictEffects_keeps (o : Outcome) (item : ItemCode) (side : Side) {s : State} (h : P s) :
    P (verdictEffects o item side s).1 := by
  have counted : P (countVerdict .ALARM side (ownAlarms (lanesOf s side) s).1) :=
    k.countVerdict_keeps _ _ (k.ownAlarms_keeps _ h)
  cases o with
  | ALARM =>
    simp only [verdictEffects]
    split
    · exact counted
    · exact k.keepsNotice _ _ counted
  | PASS => exact k.countVerdict_keeps .PASS side h
  | EXCUSED => exact k.countVerdict_keeps .EXCUSED side h

theorem KeptByTracks.updTrack_keeps (item : ItemCode) (f : Track → Track) {s : State} (h : P s) : P (updTrack item f s) :=
  k.keepsTrack _ s h

theorem KeptByTracks.giveVerdict_keeps (item : ItemCode) (direction : Direction) {s : State} (h : P s) :
    P (giveVerdict item direction s) := by
  unfold giveVerdict
  split
  · exact h
  · refine k.updTrack_keeps _ _ (k.verdictEffects_keeps _ _ _ ?_)
    split
    · exact h
    · exact k.rearmBoth_keeps (k.updTrack_keeps _ _ h)

theorem KeptByTracks.settleJudgement_keeps (before : Track) (j : Judgement) {s : State} (h : P s) :
    P (evaluate.settleJudgement before j s) := by
  have counted : P (if j.tagEntry then countTagEntry s else s) := by
    split
    · exact k.keepsCounts _ s h
    · exact h
  have settled := k.updTrack_keeps before.item (fun _ => j.track) counted
  have armed : ∀ u : State, P u → P (if j.track.side = before.side then u else rearmBoth u) := by
    intro u hu
    split
    · exact hu
    · exact k.rearmBoth_keeps hu
  unfold evaluate.settleJudgement
  cases j.due with
  | none => exact armed _ settled
  | some d => exact k.giveVerdict_keeps _ _ (armed _ settled)

theorem KeptByTracks.evaluate_keeps (item : ItemCode) {s : State} (h : P s) : P (evaluate item s) := by
  unfold evaluate
  split
  · exact h
  · split
    · exact h
    · exact k.settleJudgement_keeps _ _ h
    · exact k.settleJudgement_keeps _ _ h

theorem KeptByTracks.reportPassage_keeps (item : ItemCode) {s : State} (h : P s) : P (reportPassage item s) := by
  unfold reportPassage
  split
  · exact h
  · split
    · exact k.keepsRecord _ _ h
    · exact h

theorem KeptByTracks.removeTrack_keeps (item : ItemCode) {s : State} (h : P s) : P (removeTrack item s) :=
  k.rearmBoth_keeps (k.keepsTrack _ s h)

theorem KeptByTracks.expireTrack_keeps (item : ItemCode) {s : State} (h : P s) : P (expireTrack item s) := by
  unfold expireTrack
  split
  · exact h
  · refine k.removeTrack_keeps _ (k.reportPassage_keeps _ ?_)
    split
    · exact k.giveVerdict_keeps _ _ h
    · exact h

theorem KeptByTracks.expireTracks_keeps {s : State} (h : P s) : P (expireTracks s) :=
  foldl_holds_mem P _ _ (fun item _ _ hu => k.expireTrack_keeps item hu) h

theorem KeptByTracks.evict_keeps {s : State} (h : P s) : P (evict s) := by
  unfold evict
  split
  · exact h
  · exact k.keepsErrors _ _ (k.expireTrack_keeps _ h)

theorem KeptByTracks.buildSightings_keeps {s : State} (h : P s) : P (buildSightings s) :=
  foldl_holds_mem P _ _ (fun piece _ _ hu => k.keepsNotice (.SIGHTING piece) _ hu) h

theorem KeptByTracks.clearMarks_keeps {s : State} (h : P s) : P (clearMarks s) := k.keepsTrack _ s h

end

/-! ## Field windows -/

/-- A property that field windows keep: beside the tracks, whatever the field unit does, a pattern position, quiet rounds
counted anew, and the access unit and dormant timer at the creation of a track. -/
structure KeptByWindows (P : State → Prop) : Prop extends KeptByTracks P where
  keepsField : ∀ f s, P s → P (s.onField f)
  keepsPattern : ∀ (p : Fin 8 → Fin 8) s, P s → P (s.onAccess fun a => { a with patternPosition := p a.patternPosition })
  keepsQuiet : ∀ s, P s → P (quietRoundsZero s)
  keepsStir : ∀ s, P s → P (dormantTimerZero (stirAccess s))

section
variable {P : State → Prop} (k : KeptByWindows P)
include k

theorem KeptByWindows.windowEnd_keeps {s : State} (h : P s) : P (windowEnd s) := by
  unfold windowEnd
  exact k.keepsField _ _ (k.clearMarks_keeps (k.buildSightings_keeps
    (foldl_holds_mem P _ _ (fun item _ _ hu => k.evaluate_keeps item hu) h)))

theorem KeptByWindows.completeSweep_keeps (c : Coil) (sweep : Sweep) {s : State} (h : P s) : P (completeSweep c sweep s) := by
  cases sweep with
  | search r =>
    have swept : ∀ f, P (decayWhere c (fun t => !r.read.contains t.item) (s.onField f)) :=
      fun f => k.keepsTrack _ _ (k.keepsField f s h)
    simp only [completeSweep]
    split
    · exact swept _
    · exact k.keepsQuiet _ (swept _)
  | follow r =>
    unfold completeSweep
    exact k.keepsTrack _ s h

theorem KeptByWindows.driveCheck_keeps (c : Coil) (sense : DriveSense) {s : State} (h : P s) : P (driveCheck c sense s).1 := by
  have put : ∀ st, P (putCoil c st s) := fun st => k.keepsField _ s h
  unfold driveCheck
  split
  · split
    · exact h
    · exact k.keepsRecord _ _ (put _)
  · split
    · split
      · exact k.keepsRecord _ _ (put _)
      · exact put _
    · exact h

theorem KeptByWindows.secondHalf_keeps (kind : WindowKind) (sense : DriveSense) {s : State} (h : P s) :
    P (secondHalf kind sense s) := by
  have checked := k.driveCheck_keeps .S sense h
  have begun := k.keepsField (fun f => (beginSweep kind .S (driveCheck .S sense s).1).field) _ checked
  unfold secondHalf
  simp only
  split
  · split
    · exact begun
    · split
      · exact k.windowEnd_keeps (k.completeSweep_keeps .S _ begun)
      · exact begun
  · exact k.windowEnd_keeps checked

theorem KeptByWindows.firstHalf_keeps (kind : WindowKind) (sense : DriveSense) {s : State} (h : P s) :
    P (firstHalf kind sense s) := by
  have checked := k.driveCheck_keeps .H sense h
  have begun := k.keepsField (fun f => (beginSweep kind .H (driveCheck .H sense s).1).field) _ checked
  unfold firstHalf
  simp only
  split
  · split
    · exact begun
    · split
      · exact k.secondHalf_keeps kind sense (k.completeSweep_keeps .H _ begun)
      · exact begun
  · exact k.secondHalf_keeps kind sense checked

theorem KeptByWindows.endHalf_keeps (w : Window) (sense : DriveSense) {s : State} (h : P s) : P (endHalf w sense s) := by
  have completed := k.completeSweep_keeps w.half w.sweep h
  unfold endHalf
  simp only
  split
  · exact k.secondHalf_keeps _ sense completed
  · exact k.windowEnd_keeps completed

theorem KeptByWindows.cutWindow_keeps {s : State} (h : P s) : P (cutWindow s) := by
  unfold cutWindow
  split
  · exact h
  · exact k.windowEnd_keeps (k.completeSweep_keeps _ _ h)

theorem KeptByWindows.startWindow_keeps (sense : DriveSense) {s : State} (h : P s) : P (startWindow sense s) :=
  k.firstHalf_keeps _ sense (k.clearMarks_keeps (k.keepsPattern (· + 1) s h))

theorem KeptByWindows.takeRead_keeps (item : ItemCode) (loan : LoanWord) (c : Coil) (v : Strength) {s : State} (h : P s) :
    P (takeRead item loan c v s) := by
  unfold takeRead
  split
  · exact k.updTrack_keeps _ _ h
  · refine k.keepsStir _ (k.keepsTrack _ _ ?_)
    split
    · exact h
    · exact k.evict_keeps h

theorem KeptByWindows.passRead_keeps (c : Coil) (seen : List ItemCode) (reply : Option Reply) {s : State} (h : P s) :
    P (passRead c seen reply s) := by
  unfold passRead
  split
  · exact h
  · split
    · exact k.takeRead_keeps _ _ _ _ h
    · exact h

theorem KeptByWindows.progress_keeps (half : Coil) (sweep : Sweep) (done : Bool) (sense : DriveSense) {s : State} (h : P s) :
    P (progress half sweep done sense s) := by
  unfold progress
  simp only
  split
  · exact k.endHalf_keeps _ sense (k.keepsField _ s h)
  · exact k.keepsField _ s h

theorem KeptByWindows.closeWindow_keeps (reception : Reception) (sense : DriveSense) {s : State} (h : P s) :
    P (closeWindow reception sense s) := by
  unfold closeWindow
  split
  · exact h
  · split
    · exact h
    · exact k.progress_keeps _ _ _ sense (k.passRead_keeps _ _ _ h)

theorem KeptByWindows.endCall_keeps (reception : Reception) (sense : DriveSense) {s : State} (h : P s) :
    P (endCall reception sense s) := by
  unfold endCall
  split
  · exact h
  · split
    · exact h
    · split
      · exact h
      · exact k.progress_keeps _ _ _ sense (k.passRead_keeps _ _ _ h)

theorem KeptByWindows.limitSweep_keeps (sense : DriveSense) {s : State} (h : P s) : P (limitSweep sense s) := by
  unfold limitSweep
  split
  · exact h
  · exact k.endHalf_keeps _ sense h

end

/-! ## Frames of the host -/

/-- A host command row stands for its complete frame (R173, R176). -/
theorem effect_hostFrame {c : Instr} {f : Frame} (h : hostFrameOf c = some f) : effect c = completeFrame f := by
  cases c <;> simp only [hostFrameOf, Option.some.injEq, reduceCtorEq] at h <;> subst h <;> rfl

/-- A property that the commands of the host keep: whatever changes of the host port with the parameters as they are, the wake
by a frame, and, AWAKE, what each command does. -/
structure KeptByHost (P : State → Prop) : Prop where
  keepsPort : ∀ s t : State, t = { s with host := t.host } → t.host.params = s.host.params → P s → P t
  keepsWake : ∀ s, s.supply.dormancy = .DORMANT → P s → P (wake .BRISK s)
  keepsBeams : ∀ s t : State, t = { s with beams := t.beams } → P s → P t
  keepsParam : ∀ id v s, P s → P (s.onHost fun h => { h with params := storeParam h.params id v })
  keepsUnpend : ∀ s, P s → P (s.onSupply fun u => { u with pendingEntry := false })
  keepsExcuses : ∀ (f : List ExcuseEntry → List ExcuseEntry) s, P s →
    P (s.onVerdict fun v => { v with excuses := f v.excuses })
  keepsNotice : ∀ b s, s.supply.dormancy = .AWAKE → P s → P (queueNotice b s)
  keepsHush : ∀ l s, P s → P (hushLane l .HOST s)
  keepsSound : ∀ s t : State, t = { s with sounder := t.sounder } → P s → P t
  keepsRest : ∀ s, P s → P (dormantEntry s)

theorem wake_awake (cadence : Cadence) (s : State) : (wake cadence s).supply.dormancy = .AWAKE := by
  simp only [wake]
  split <;> simp [dormantTimerZero]

section
variable {P : State → Prop} (k : KeptByHost P)
include k

theorem KeptByHost.discardFrame_keeps {s : State} (h : P s) : P (discardFrame s) :=
  k.keepsPort s _ rfl rfl h

/-- A complete frame is taken awake; what its command then does is to be shown. -/
theorem KeptByHost.takeFrame_keeps (f : Frame) (take : State → State × Response)
    (takes : ∀ s, s.supply.dormancy = .AWAKE → P s → P (take s).1) {s : State} (h : P s) : P (takeFrame f take s) := by
  have received : P (frameReceived f s) := k.keepsPort s _ rfl rfl h
  unfold takeFrame
  split
  · exact k.discardFrame_keeps h
  · simp only
    split
    · exact k.keepsPort _ _ rfl rfl received
    · refine k.keepsPort _ _ rfl rfl (takes _ ?_ (k.keepsPort _ _ rfl rfl ?_))
      · cases hd : (frameReceived f s).supply.dormancy with
        | AWAKE => simpa [claimResponse] using hd
        | DORMANT => simp [claimResponse, wake_awake]
      · split
        · exact k.keepsWake _ ‹_› received
        · exact received

theorem KeptByHost.commandFrame_keeps (code : Byte) (length : Nat) (payload : List Byte) (act : State → Taken)
    (acts : ∀ s, s.supply.dormancy = .AWAKE → P s → P (act s).state) {s : State} (h : P s) :
    P (commandFrame code length payload act s) := by
  refine k.takeFrame_keeps _ _ (fun u awake hu => ?_) h
  unfold takeCommand
  split
  · exact hu
  · exact acts u awake hu

theorem KeptByHost.actSet_keeps (id : Byte) (value : Nat) {s : State} (h : P s) : P (actSet id value s).state := by
  unfold actSet
  split
  · exact h
  · simp only
    split
    · exact k.keepsUnpend _ (k.keepsParam _ _ s h)
    · exact k.keepsParam _ _ s h

theorem KeptByHost.applyExcuse_keeps (item : ItemCode) (life : Nat) {s : State} (h : P s) : P (applyExcuse item life s) := by
  unfold applyExcuse
  split
  · exact k.keepsExcuses _ s h
  · have added : addExcuse item life s = s.onVerdict fun v => { v with excuses := (addExcuse item life s).verdict.excuses } := by
      simp only [addExcuse, State.onVerdict]
      (repeat' split) <;> rfl
    rw [added]
    exact k.keepsExcuses (fun _ => (addExcuse item life s).verdict.excuses) s h

theorem KeptByHost.actHush_keeps (arg : Byte) {s : State} (h : P s) : P (actHush arg s).state := by
  have left := k.keepsHush .left s h
  unfold actHush
  simp only [hushNamed, refuse]
  split
  · split
    · exact left
    · exact h
  · split
    · split
      · exact k.keepsHush .right s h
      · exact h
    · split
      · split
        · exact k.keepsHush .right _ left
        · exact h
      · exact h

/-- Every complete frame keeps the property: one case a command code (R176, R200). -/
theorem KeptByHost.completeFrame_keeps (f : Frame) {s : State} (h : P s) : P (completeFrame f s) := by
  have same : ∀ (code : Byte) (length : Nat) (payload : List Byte) (act : State → Taken), (∀ s, (act s).state = s) →
      P (commandFrame code length payload act s) := fun code length payload act unchanged =>
    k.commandFrame_keeps code length payload act (fun u _ hu => (unchanged u).symm ▸ hu) h
  unfold completeFrame
  simp only
  split
  case h_1 => exact same _ _ _ _ fun _ => rfl
  case h_2 => exact same _ _ _ _ fun _ => rfl
  case h_3 => exact same _ _ _ _ fun _ => rfl
  case h_4 => exact same _ _ _ _ fun u => by unfold actCounts; split <;> rfl
  case h_5 =>
    refine k.commandFrame_keeps _ _ _ _ (fun u _ hu => ?_) h
    unfold actTakeCounts
    split
    · exact k.keepsBeams u _ rfl hu
    · exact hu
  case h_6 => exact k.commandFrame_keeps _ _ _ _ (fun u _ hu => k.keepsPort u _ rfl rfl hu) h
  case h_7 =>
    refine k.commandFrame_keeps _ _ _ _ (fun u _ hu => ?_) h
    unfold actStream
    split
    · exact k.keepsPort u _ rfl rfl hu
    · split
      · exact k.keepsPort u _ rfl rfl hu
      · exact hu
  case h_8 => exact k.commandFrame_keeps _ _ _ _ (fun u _ hu => k.actSet_keeps _ _ hu) h
  case h_9 => exact same _ _ _ _ fun _ => rfl
  case h_10 =>
    refine k.commandFrame_keeps _ _ _ _ (fun u awake hu => k.keepsNotice _ _ ?_ (k.applyExcuse_keeps _ _ hu)) h
    simpa using awake
  case h_11 =>
    refine k.commandFrame_keeps _ _ _ _ (fun u awake hu => k.keepsNotice _ _ ?_ (k.keepsExcuses _ u hu)) h
    simpa using awake
  case h_12 => exact same _ _ _ _ fun _ => rfl
  case h_13 => exact k.commandFrame_keeps _ _ _ _ (fun u _ hu => k.actHush_keeps _ hu) h
  case h_14 => exact k.commandFrame_keeps _ _ _ _ (fun u _ hu => k.keepsSound u _ rfl hu) h
  case h_15 =>
    refine k.commandFrame_keeps _ _ _ _ (fun u _ hu => ?_) h
    unfold actRest
    split
    · exact hu
    · exact k.keepsRest u hu
  case h_16 =>
    exact same _ _ _ _ fun u => by
      unfold actReset
      (repeat' split) <;> rfl
  case h_17 => exact k.takeFrame_keeps _ _ (fun _ _ hu => hu) h

/-- The receiver keeps the property byte by byte (R174). -/
theorem KeptByHost.receiveByte_keeps (b : LinkByte) {s : State} (h : P s) : P (receiveByte b s) := by
  have put : ∀ r buf, P (putReceiver r buf s) := fun r buf => k.keepsPort s _ rfl rfl h
  have discarded := k.discardFrame_keeps h
  unfold receiveByte
  simp only
  split
  case h_1 =>
    split
    · exact h
    · exact put _ _
  case h_5 =>
    split
    · exact discarded
    · exact k.completeFrame_keeps _ h
  all_goals
    split
    · exact discarded
    · exact put _ _

theorem KeptByHost.receiveBytes_keeps (bytes : List LinkByte) {s : State} (h : P s) : P (receiveBytes bytes s) :=
  foldl_holds_mem P _ _ (fun b _ _ hu => k.receiveByte_keeps b hu) h

theorem KeptByHost.byteGap_keeps {s : State} (h : P s) : P (byteGap s) := by
  unfold byteGap
  split
  · exact h
  · exact k.discardFrame_keeps h

theorem KeptByHost.startDelivery_keeps {s : State} (h : P s) : P (startDelivery s) := by
  unfold startDelivery
  split
  · exact k.keepsPort s _ rfl rfl h
  · exact h

theorem KeptByHost.reportEnd_keeps {s : State} (h : P s) : P (reportEnd s) := by
  unfold reportEnd
  split
  · have left : P (s.onHost fun h => { h with ring := h.ring.tail, transmitter := .IDLE }) := k.keepsPort s _ rfl rfl h
    simp only
    split
    · exact k.keepsPort _ _ rfl rfl left
    · exact k.startDelivery_keeps left
  · exact h

/-- The end of a response keeps what the three resets keep (R175, R180). -/
theorem KeptByHost.responseEnd_keeps (pins : StrapPins)
    (full : ∀ s, P s → P (powerOnState .FULL (readStraps pins) s)) (engine : ∀ s, P s → P (engineReset s)) {s : State}
    (h : P s) : P (responseEnd pins s) := by
  unfold responseEnd
  split
  · rename_i r _ _
    have done : P (s.onHost fun h => { h with outstanding := none, transmitter := .IDLE }) := k.keepsPort s _ rfl rfl h
    refine k.startDelivery_keeps ?_
    unfold actOnReset
    split
    · exact done
    · exact full _ done
    · exact engine _ done
    · exact k.keepsPort _ _ rfl rfl (k.keepsBeams _ _ rfl done)
  · exact h
  · exact h
  · exact h

end

/-! ## Round starts -/

/-- A round start keeps what its own settings, each of its parts, and the slots that it starts past keep (R87, R93). -/
theorem roundStart_keeps (P : State → Prop) (how : RoundHow) (timer : Nat) (input : RoundInput)
    (begins : ∀ s, P s → P (s.onLine fun u => { u with timer := timer, round := u.round + 1 }))
    (parts : ∀ u s, P s → P (roundTask how input.sense u s))
    (ends : ∀ slots calm s, P s →
      P ((s.onLine fun u => { u with requestSet := none, slots := slots }).onAccess fun a =>
        { a with grant := false, peerCalm := calm })) {s : State} (h : P s) :
    P (roundStart how timer input s) := by
  have tasks : P (roundTasks how input.sense (roundOrder input)
      (s.onLine fun u => { u with timer := timer, round := u.round + 1 })) :=
    foldl_holds_mem P _ _ (fun u _ _ hu => parts u _ hu) (begins s h)
  simp only [roundStart, missSlots_eq]
  exact ends _ _ (roundTasks how input.sense (roundOrder input) _) tasks

end Sys2Proof.Machine
end

section
/-! PROOFS. What each line state and dormancy allow (O7). -/

namespace Sys2Proof.Machine

/-! ## What the shared operations leave of it -/

/-- A notice in flight is the head of an outbox that is not empty (R106). -/
def flightHeld (q : NoticeQueue) : Prop := q.inFlight ≠ .NONE → q.outbox ≠ []

theorem queueNotice_flightHeld (b : NoticeBody) {s : State} (h : flightHeld s.notices) :
    flightHeld (queueNotice b s).notices := by
  unfold queueNotice
  simp only
  split
  · simp [flightHeld]
  · split
    · simp [flightHeld]
    · exact h

theorem dropStale_flightHeld {s : State} (h : flightHeld s.notices) : flightHeld (dropStale s).notices := by
  intro flying
  have flying' : s.notices.inFlight ≠ .NONE := flying
  simp [dropStale, boundNotices, flying', h flying']

/-- The line unit, dormancy AWAKE and the in-flight mark as they were, and the notice in flight still at the head of the
outbox. -/
def lineSteady (line : LineUnit) (flight : Flight) (s : State) : Prop :=
  s.line = line ∧ s.supply.dormancy = .AWAKE ∧ s.notices.inFlight = flight ∧ flightHeld s.notices

/-- Tracks, verdicts and field windows leave the line steady. -/
theorem lineSteady_kept (line : LineUnit) (flight : Flight) : KeptByWindows (lineSteady line flight) where
  keepsTrack _ _ h := h
  keepsRecord _ _ h := by simpa [lineSteady] using h
  keepsNotice b s h := by
    obtain ⟨same, awake, flying, held⟩ := h
    exact ⟨by simpa using same, by simpa using awake, by simpa using flying, queueNotice_flightHeld b held⟩
  keepsErrors _ _ h := h
  keepsCounts _ _ h := by simpa [lineSteady] using h
  keepsLane _ _ _ _ h := by simpa [lineSteady] using h
  keepsField _ _ h := h
  keepsPattern _ _ h := h
  keepsQuiet _ h := h
  keepsStir _ h := h

/-- Where a window is allowed, or is as it was, an AWAKE pedestal's tracks, verdicts and windows keep its conduct. -/
theorem lineConduct_windows {s t : State} (h : lineConduct s) (awake : s.supply.dormancy = .AWAKE)
    (window : t.field.window ≠ none → s.line.state = .SYNCED ∨ s.line.state = .LONE)
    (kept : ∀ P, KeptByWindows P → P s → P t) : lineConduct t := by
  obtain ⟨-, mark, flight, peers, silent, -⟩ := h
  obtain ⟨line, awake', flying, held⟩ :=
    kept _ (lineSteady_kept s.line s.notices.inFlight) ⟨rfl, awake, rfl, fun f => (flight f).2⟩
  rw [lineConduct, line, awake', flying]
  refine ⟨window, mark, fun f => ⟨(flight f).1, held (flying ▸ f)⟩, peers, fun _ => silent awake, by simp⟩

/-- A pedestal in SYNCED, LONE or LISTEN is AWAKE. -/
theorem lineConduct_awake {s : State} (h : lineConduct s) (hs : s.line.state ≠ .SILENT) (hc : s.line.state ≠ .CLASHED) :
    s.supply.dormancy = .AWAKE := by
  obtain ⟨-, -, -, -, -, dormant⟩ := h
  cases hd : s.supply.dormancy with
  | AWAKE => rfl
  | DORMANT => exact ((dormant hd).1.elim hs hc).elim

theorem lineConduct_open_awake {s : State} (h : lineConduct s) (o : s.line.state = .SYNCED ∨ s.line.state = .LONE) :
    s.supply.dormancy = .AWAKE := by
  rcases o with o | o <;> exact lineConduct_awake h (by simp [o]) (by simp [o])

/-- In SYNCED and LONE, tracks, verdicts and windows keep the conduct. -/
theorem lineConduct_open {s t : State} (h : lineConduct s) (o : s.line.state = .SYNCED ∨ s.line.state = .LONE)
    (kept : ∀ P, KeptByWindows P → P s → P t) : lineConduct t :=
  lineConduct_windows h (lineConduct_open_awake h o) (fun _ => o) kept

/-- What acts on a window in flight keeps the conduct, since there is one in SYNCED and LONE alone. -/
theorem lineConduct_inWindow {s t : State} (h : lineConduct s) (idle : s.field.window = none → t = s)
    (kept : ∀ P, KeptByWindows P → P s → P t) : lineConduct t := by
  by_cases w : s.field.window = none
  · rw [idle w]; exact h
  · exact lineConduct_open h (h.1 w) kept

/-- An AWAKE pedestal's conduct speaks of the window, the line and the notice in flight alone. -/
theorem lineConduct_of_awake {s : State} (awake : s.supply.dormancy = .AWAKE)
    (window : s.field.window ≠ none → s.line.state = .SYNCED ∨ s.line.state = .LONE)
    (mark : s.line.startMark ≠ .idle → s.line.state = .SYNCED)
    (flight : s.notices.inFlight ≠ .NONE → s.line.state = .SYNCED ∧ s.notices.outbox ≠ [])
    (peers : s.line.state = .LISTEN ∨ s.line.state = .LONE ∨ s.line.state = .SILENT → peersAbsent s.line)
    (silent : s.line.state ≠ .SILENT) : lineConduct s :=
  ⟨window, mark, flight, peers, fun _ => silent, fun d => by simp [awake] at d⟩

/-- Outside SYNCED and LONE nothing is in hand: no window, no start mark, no notice in flight. -/
theorem lineConduct_idle {s : State} (h : lineConduct s) (synced : s.line.state ≠ .SYNCED) :
    s.line.startMark = .idle ∧ s.notices.inFlight = .NONE ∧ (s.line.state ≠ .LONE → s.field.window = none) := by
  obtain ⟨window, mark, flight, -, -, -⟩ := h
  refine ⟨by_contra fun n => synced (mark n), by_contra fun n => synced (flight n).1, fun lone => by_contra fun n => ?_⟩
  exact (window n).elim synced lone

/-- The conduct speaks of the window, the line state with its start mark and peer codes, the notices and the supply, of the lanes
only as both ARMED, and of the tables and the grant only as empty. -/
theorem lineConduct_mono {s t : State} (h : lineConduct s) (window : t.field.window = s.field.window)
    (line : t.line.state = s.line.state) (mark : t.line.startMark = s.line.startMark)
    (peers : t.line.peerLeft = s.line.peerLeft ∧ t.line.peerRight = s.line.peerRight) (notices : t.notices = s.notices)
    (supply : t.supply = s.supply) (table : s.track.table = [] → t.track.table = [])
    (cache : s.track.cache = [] → t.track.cache = [])
    (lanes : s.lanes.left = .ARMED ∧ s.lanes.right = .ARMED → t.lanes.left = .ARMED ∧ t.lanes.right = .ARMED)
    (grant : s.access.grant = false → t.access.grant = false) : lineConduct t := by
  obtain ⟨window', mark', flight, absent, silent, dormant⟩ := h
  simp only [lineConduct, peersAbsent, window, line, mark, peers, notices, supply] at *
  refine ⟨window', mark', flight, absent, silent, fun d => ?_⟩
  obtain ⟨state, gone, noTrack, noEntry, outbox, left, right, noGrant, timer⟩ := dormant d
  obtain ⟨left', right'⟩ := lanes ⟨left, right⟩
  exact ⟨state, gone, table noTrack, cache noEntry, outbox, left', right', grant noGrant, timer⟩

/-- LISTEN ends in SYNCED with nothing in hand (R87, R91). -/
theorem lineConduct_joined {s t : State} (h : lineConduct s) (listen : s.line.state = .LISTEN)
    (line : t.line.state = .SYNCED) (notices : t.notices = s.notices) (supply : t.supply = s.supply) : lineConduct t := by
  have awake := lineConduct_awake h (by simp [listen]) (by simp [listen])
  obtain ⟨-, flight, -⟩ := lineConduct_idle h (by simp [listen])
  exact lineConduct_of_awake (supply ▸ awake) (fun _ => .inl line) (fun _ => line) (by simp [notices, flight]) (by simp [line])
    (by simp [line])

/-! ## DORMANT entry, wake and the resets -/

theorem rested_conduct (s : State) : lineConduct (rested s) := by
  by_cases c : s.line.state = .CLASHED <;> simp [lineConduct, rested, c, peersAbsent]

theorem dormantEntry_conduct (s : State) : lineConduct (dormantEntry s) := by
  rw [dormantEntry_eq]
  exact rested_conduct s

/-- A DORMANT pedestal wakes into LISTEN, or stays CLASHED (R194). -/
theorem wake_conduct (cadence : Cadence) {s : State} (h : lineConduct s) (d : s.supply.dormancy = .DORMANT) :
    lineConduct (wake cadence s) := by
  have ⟨_, _, _, _, _, dormant⟩ := h
  obtain ⟨line, -⟩ := dormant d
  obtain ⟨mark, flight, window⟩ := lineConduct_idle h (by rcases line with l | l <;> simp [l])
  have none := window (by rcases line with l | l <;> simp [l])
  by_cases c : s.line.state = .CLASHED
  · refine lineConduct_of_awake (wake_awake _ _) ?_ ?_ ?_ ?_ ?_ <;>
      simp [wake, c, none, mark, flight, clearPeers_eq, freshClasses, clearSlots, dormantTimerZero]
  · rw [wake_eq _ _ c]
    exact lineConduct_of_awake rfl (by simp [woken, none]) (by simp [woken]) (by simp [woken]) (by simp [woken])
      (by simp [woken])

theorem engineReset_conduct {s : State} (h : lineConduct s) : lineConduct (engineReset s) := by
  obtain ⟨-, mark, -, -, silent, dormant⟩ := h
  refine ⟨by simp [engineReset, dormantTimerZero, freshClasses, abandonWindow], by simpa using mark, ?_, ?_, ?_, ?_⟩
  all_goals
    simp [engineReset, dormantTimerZero, freshClasses, clearPeers_eq, armLanes, lanesAfterPeersLost, afterPeerLost,
      laneState, isHushed] at silent dormant ⊢
  · exact silent
  · exact fun d => (dormant d).1

/-! ## The round start -/

/-- A change of the dormant timer keeps the conduct of an AWAKE pedestal, and of any pedestal when it sets the timer to 0. -/
theorem onSupply_conduct {s : State} (h : lineConduct s) (awake : s.supply.dormancy = .AWAKE) {f : SupplyUnit → SupplyUnit}
    (same : (f s.supply).dormancy = .AWAKE) : lineConduct (s.onSupply f) := by
  obtain ⟨window, mark, flight, peers, silent, -⟩ := h
  exact lineConduct_of_awake same window mark flight peers (silent awake)

theorem dormantTimerZero_conduct {s : State} (h : lineConduct s) : lineConduct (dormantTimerZero s) := by
  simp only [lineConduct, dormantTimerZero, onSupply_field, onSupply_line, onSupply_notices, onSupply_supply, onSupply_track,
    onSupply_lanes, onSupply_access] at h ⊢
  obtain ⟨window, mark, flight, peers, silent, dormant⟩ := h
  refine ⟨window, mark, flight, peers, silent, fun d => ?_⟩
  obtain ⟨line, absent, table, cache, outbox, left, right, grant, -⟩ := dormant d
  exact ⟨line, absent, table, cache, outbox, left, right, grant, trivial, trivial, trivial⟩

theorem quietMinuteTurn_conduct {s : State} (h : lineConduct s) (awake : s.supply.dormancy = .AWAKE) :
    lineConduct (quietMinuteTurn s) := by
  have turned : ∀ m, lineConduct (s.onSupply fun u => { u with dormantRounds := 0, quietMinutes := m }) :=
    fun m => onSupply_conduct h awake awake
  unfold quietMinuteTurn
  simp only
  split
  · split
    · exact dormantEntry_conduct _
    · exact onSupply_conduct (turned _) awake awake
  · exact turned _

theorem pendingTest_conduct {s : State} (h : lineConduct s) : lineConduct (pendingTest s) := by
  unfold pendingTest
  split
  · exact dormantEntry_conduct s
  · exact h

theorem dormantAdvance_conduct {s : State} (h : lineConduct s) : lineConduct (dormantAdvance s) := by
  unfold dormantAdvance
  split
  · rename_i awake
    split
    · refine pendingTest_conduct ?_
      split
      · exact quietMinuteTurn_conduct h awake
      · exact onSupply_conduct h awake awake
    · exact dormantTimerZero_conduct h
  · exact h

theorem soundTick_armed (l : LaneSide) {s : State} (armed : laneState s l = .ARMED) : soundTick l s = s := by
  simp [soundTick, armed]

theorem soundTick_conduct (l : LaneSide) {s : State} (h : lineConduct s) : lineConduct (soundTick l s) := by
  refine lineConduct_mono h ?_ ?_ ?_ ?_ ?_ ?_ ?_ ?_ (fun ⟨left, right⟩ => ?_) ?_
  case refine_9 => rw [soundTick_armed l (by cases l <;> assumption)]; exact ⟨left, right⟩
  all_goals simp

theorem expireTracks_conduct {s : State} (h : lineConduct s) : lineConduct (expireTracks s) := by
  have ⟨window, _, _, _, _, dormant⟩ := h
  cases d : s.supply.dormancy with
  | AWAKE => exact lineConduct_windows h d (by simpa using window) fun _ k => k.expireTracks_keeps
  | DORMANT =>
    obtain ⟨-, -, table, -⟩ := dormant d
    simpa [expireTracks, table] using h

theorem dropStale_conduct {s : State} (h : lineConduct s) : lineConduct (dropStale s) := by
  obtain ⟨window, mark, flight, peers, silent, dormant⟩ := h
  refine ⟨by simpa using window, by simpa using mark, fun f => ?_, by simpa using peers, by simpa using silent, fun d => ?_⟩
  · have flying : s.notices.inFlight ≠ .NONE := by simpa using f
    exact ⟨by simpa using (flight flying).1, dropStale_flightHeld (fun f => (flight f).2) f⟩
  · obtain ⟨line, absent, table, cache, outbox, rest⟩ := dormant (by simpa using d)
    have empty : (dropStale s).notices.outbox = [] := by simp [dropStale, boundNotices, looseNotices, outbox]
    simp only [empty, dropStale_frame]
    exact ⟨line, absent, table, cache, trivial, rest⟩

theorem windowAtRound_conduct (how : RoundHow) (sense : DriveSense) {s : State} (h : lineConduct s) :
    lineConduct (windowAtRound how sense s) := by
  unfold windowAtRound
  split
  · rename_i due
    have o : s.line.state = .SYNCED ∨ s.line.state = .LONE := by
      simp only [Bool.or_eq_true, Bool.and_eq_true, decide_eq_true_eq] at due
      exact due.imp (fun ⟨⟨synced, _⟩, _⟩ => synced) (fun ⟨lone, _⟩ => lone)
    have granted : lineConduct (s.onAccess fun a => { a with grant := false }) :=
      lineConduct_mono h rfl rfl rfl ⟨rfl, rfl⟩ rfl rfl id id id fun _ => rfl
    exact lineConduct_open granted o fun _ k => k.startWindow_keeps sense
  · exact h

/-- Each part of a round start keeps the conduct. -/
theorem roundTask_conduct (how : RoundHow) (sense : DriveSense) (u : RoundTask) {s : State} (h : lineConduct s) :
    lineConduct (roundTask how sense u s) := by
  cases u with
  | windowEnd => exact lineConduct_inWindow h (fun w => by simp [roundTask, cutWindow, w]) fun _ k => k.cutWindow_keeps
  | trackExpiry => exact expireTracks_conduct h
  | cacheAgeing =>
    exact lineConduct_mono h rfl rfl rfl ⟨rfl, rfl⟩ rfl rfl id (fun e => by simp [roundTask, ageCache, e]) id id
  | minuteCount => simpa [roundTask, lineConduct, peersAbsent] using h
  | quietCount => simpa [roundTask, lineConduct, peersAbsent] using h
  | fieldClass => simpa [roundTask, lineConduct, peersAbsent] using h
  | staleNotices => exact dropStale_conduct h
  | soundTimers => exact soundTick_conduct .right (soundTick_conduct .left h)
  | beamsBroken =>
    have kept : (beamsAtRound s).track.table = s.track.table ∧ (beamsAtRound s).track.cache = s.track.cache := by
      unfold beamsAtRound
      split <;> simp
    simpa [roundTask, lineConduct, peersAbsent, kept] using h
  | dormantTimer => exact dormantAdvance_conduct h
  | requestDecision => simpa [roundTask, lineConduct, peersAbsent] using h
  | slotWord => simpa [roundTask, lineConduct, peersAbsent] using h
  | windowStart => exact windowAtRound_conduct how sense h

theorem roundStart_conduct (how : RoundHow) (timer : Nat) (input : RoundInput) {s : State} (h : lineConduct s) :
    lineConduct (roundStart how timer input s) := by
  refine roundStart_keeps lineConduct how timer input (fun s h => h) (fun u s h => roundTask_conduct how _ u h)
    (fun slots calm s h => ?_) h
  exact lineConduct_mono h rfl rfl rfl ⟨rfl, rfl⟩ rfl rfl id id id fun _ => rfl

/-! ## Slots, marks and stuck lines -/

theorem handCalm_conduct (j : Fin 16) (value : Cadence) {s : State} (h : lineConduct s) : lineConduct (handCalm j value s) := by
  unfold handCalm
  simp only
  split
  · have held : lineConduct (s.onAccess fun a => { a with peerCalm := a.peerCalm.set j value }) := h
    split
    · split
      · exact wake_conduct _ held ‹_›
      · exact dormantTimerZero_conduct (by simpa [lineConduct, peersAbsent] using held)
    · exact held
  · exact h

theorem observe_dormancy (l : LaneSide) (seen : PeerCode) (s : State) :
    (observe l seen s).supply.dormancy = s.supply.dormancy := by
  unfold observe
  simp only [dormantTimerZero]
  (repeat' split) <;> simp

theorem handCode_dormancy (j : Fin 16) (o : SlotOutcome) (s : State) :
    (handCode j o s).supply.dormancy = s.supply.dormancy := by
  unfold handCode
  (repeat' split) <;> simp [observe_dormancy]

/-- Codes and beam bits are taken AWAKE, in SYNCED or CLASHED (R61, R95, R102). -/
theorem slotEnd_conduct (j : Fin 16) (o : SlotOutcome) {s : State} (h : lineConduct s) : lineConduct (slotEnd j o s) := by
  have ⟨window, mark, flight, peers, silent, dormant⟩ := h
  unfold slotEnd
  split
  · refine handCalm_conduct j _ ?_
    split
    · rename_i takes
      have line : s.line.state = .SYNCED ∨ (s.line.state = .CLASHED ∧ s.supply.dormancy = .AWAKE) := by
        simpa [takesRow] using takes
      have awake : s.supply.dormancy = .AWAKE :=
        line.elim (fun l => lineConduct_awake h (by simp [l]) (by simp [l])) fun l => l.2
      refine lineConduct_of_awake (by simpa [handCode_dormancy] using awake) (by simpa using window) (by simpa using mark)
        (by simpa using flight) (fun l => ?_) (by simpa using silent awake)
      rcases line with c | ⟨c, -⟩ <;> simp [c] at l
    · exact h
  · exact h

theorem endMark_conduct (began length : Nat) (input : RoundInput) {s : State} (h : lineConduct s) :
    lineConduct (endMark began length input s) := by
  have ⟨window, mark, flight, peers, silent, dormant⟩ := h
  have released : lineConduct (releaseDriver (runEnds s)) :=
    ⟨window, by simp [releaseDriver], by simp [releaseDriver], peers, silent, dormant⟩
  unfold endMark
  simp only
  split
  · exact h
  · split
    · split
      · refine roundStart_conduct _ _ _ ?_
        simp only [framingError, missSlots_eq]
        exact lineConduct_mono released rfl rfl rfl ⟨rfl, rfl⟩ rfl rfl id id id fun _ => rfl
      · exact roundStart_conduct _ _ _ released
    · split
      · exact roundStart_conduct _ _ _ (lineConduct_joined h ‹_› rfl rfl rfl)
      · exact h

theorem expireTimer_conduct (input : RoundInput) {s : State} (h : lineConduct s) : lineConduct (expireTimer input s) := by
  unfold expireTimer
  split
  · rename_i listen
    split
    · exact lineConduct_joined h listen rfl rfl rfl
    · exact roundStart_conduct _ _ _ h
  · split
    · exact roundStart_conduct _ _ _ h
    · exact h

theorem startIfDue_conduct (timer : Nat) (input : RoundInput) {s : State} (h : lineConduct s) :
    lineConduct (startIfDue timer input s) := by
  unfold startIfDue
  split
  · exact roundStart_conduct _ _ _ h
  · exact h

theorem stickLine_conduct (timer : Nat) (input : RoundInput) {s : State} (h : lineConduct s) :
    lineConduct (stickLine timer input s) := by
  unfold stickLine
  split
  · rename_i line
    have awake : s.supply.dormancy = .AWAKE := by
      rcases (by simpa using line : s.line.state = .SYNCED ∨ s.line.state = .LISTEN) with l | l <;>
        exact lineConduct_awake h (by simp [l]) (by simp [l])
    refine startIfDue_conduct timer input ?_
    rw [loneEntry_eq]
    exact lineConduct_of_awake awake (by simp) (by simp) (by simp) (by simp) (by simp)
  · exact h

theorem freeTiming_conduct (timer : Nat) (input : RoundInput) {s : State} (h : lineConduct s) :
    lineConduct (freeTiming timer input s) := by
  unfold freeTiming
  split
  · refine startIfDue_conduct timer input ?_
    rw [freeEntry_eq]
    by_cases clashed : s.line.state = .CLASHED
    · obtain ⟨window, mark, flight, -, -, dormant⟩ := h
      simp only [lineConduct, peersAbsent, clashed, lanesAfterPeersLost, afterPeerLost, laneState, isHushed, reduceCtorEq] at *
      refine ⟨window, mark, flight, by simp, by simp, fun d => ?_⟩
      obtain ⟨line, absent, table, cache, outbox, left, right, rest⟩ := dormant d
      simp [table, cache, outbox, left, right, rest]
    · exact lineConduct_mono h rfl rfl rfl (by simp [clashed]) rfl rfl id id (by simp [clashed]) id
  · exact h

theorem leaveLone_conduct {s : State} (h : lineConduct s) : lineConduct (leaveLone s) := by
  unfold leaveLone
  split
  · rename_i lone
    rw [listenEntry_eq]
    exact lineConduct_of_awake (by simpa [lineQuiet] using lineConduct_open_awake h (.inr lone)) (by simp [abandonWindow])
      (by simp) (by simp) (by simp) (by simp)
  · exact h

theorem followAgain_conduct {s : State} (h : lineConduct s) : lineConduct (followAgain s) := by
  unfold followAgain
  split
  · simpa [lineConduct, peersAbsent, lineQuiet] using h
  · exact h

theorem readBackOwn_conduct (bits : BitVec 16) {s : State} (h : lineConduct s) : lineConduct (readBackOwn bits s) := by
  unfold readBackOwn
  simp only
  split
  · rename_i synced
    have awake := lineConduct_open_awake h (.inl synced)
    split
    · exact h
    · split
      · rw [clashEntry_eq]
        exact lineConduct_of_awake (by simpa using awake) (by simp) (by simp) (by simp) (by simp) (by simp)
      · exact h
  · exact h

theorem reachRoundEnd_conduct (line : Level) {s : State} (h : lineConduct s) : lineConduct (reachRoundEnd line s) := by
  unfold reachRoundEnd
  split
  · obtain ⟨window, -, flight, peers, silent, dormant⟩ := h
    exact ⟨window, fun _ => ‹_›, flight, peers, silent, dormant⟩
  · exact h

theorem sendAfterRun_conduct {s : State} (h : lineConduct s) : lineConduct (sendAfterRun s) := by
  unfold sendAfterRun
  split
  · rename_i held
    have synced : s.line.state = .SYNCED := by simp only [Bool.and_eq_true, decide_eq_true_eq] at held; exact held.1
    obtain ⟨window, -, flight, peers, silent, dormant⟩ := h
    exact ⟨window, fun _ => synced, flight, peers, silent, dormant⟩
  · exact h

/-! ## Notice slots -/

/-- Notice slots are read AWAKE, in SYNCED or CLASHED (R102, R116). -/
theorem readsNotices_awake {s : State} (h : lineConduct s) (reads : readsNotices s = true) : s.supply.dormancy = .AWAKE := by
  simp only [readsNotices, Bool.or_eq_true, Bool.and_eq_true, decide_eq_true_eq] at reads
  exact reads.elim (fun l => lineConduct_open_awake h (.inl l)) fun l => l.2

theorem startNotice_conduct (slot : Fin 24) {s : State} (h : lineConduct s) : lineConduct (startNotice slot s) := by
  unfold startNotice
  simp only
  split
  · split
    · rename_i reads synced
      have awake := readsNotices_awake h reads
      have ⟨window, mark, _, peers, silent, _⟩ := h
      refine lineConduct_of_awake awake window mark (fun f => ⟨synced, ?_⟩) peers (silent awake)
      simp only [onNotices_notices, putTimer, onLine_notices] at f ⊢
      intro empty
      simp [empty] at f
    · exact h
  · exact h

theorem readBackNotice_outbox (data : List Bool) (s : State) : (readBackNotice data s).notices.outbox = s.notices.outbox := by
  unfold readBackNotice
  split
  · rfl
  · split <;> rfl

/-- Received notices act on tracks, excuses, reports and counts alone (R31, R74, R77, R117). -/
theorem receiveSlot_conduct (data : List Bool) {s : State} (h : lineConduct s) (awake : s.supply.dormancy = .AWAKE) :
    lineConduct (receiveSlot data s) := by
  obtain ⟨window, mark, flight, peers, silent, -⟩ := h
  exact lineConduct_of_awake (by simpa using awake) (by simpa using window) (by simpa using mark) (by simpa using flight)
    (by simpa [peersAbsent] using peers) (by simpa using silent awake)

theorem readBackNotice_conduct (data : List Bool) {s : State} (h : lineConduct s) (awake : s.supply.dormancy = .AWAKE) :
    lineConduct (readBackNotice data s) := by
  obtain ⟨window, mark, flight, peers, silent, -⟩ := h
  exact lineConduct_of_awake (by simpa using awake) (by simpa using window) (by simpa using mark)
    (by simpa [readBackNotice_outbox] using flight) (by simpa [peersAbsent] using peers) (by simpa using silent awake)

theorem unmark_conduct {s : State} (h : lineConduct s) : lineConduct (unmark s) := by
  obtain ⟨window, mark, -, peers, silent, dormant⟩ := h
  exact ⟨window, mark, fun f => absurd rfl f, peers, silent, dormant⟩

theorem classAfterSlot_conduct (data : List Bool) {s : State} (h : lineConduct s) : lineConduct (classAfterSlot data s) := by
  unfold classAfterSlot
  split <;> exact h

theorem slotEndSynced_conduct (data : List Bool) {s : State} (h : lineConduct s) (awake : s.supply.dormancy = .AWAKE) :
    lineConduct (slotEndSynced data s) := by
  have read := readBackNotice_conduct data h awake
  unfold slotEndSynced
  simp only
  split
  · exact receiveSlot_conduct data (classAfterSlot_conduct data read) (by simpa using awake)
  · exact receiveSlot_conduct data (classAfterSlot_conduct data (unmark_conduct read)) (by simpa using awake)
  · exact unmark_conduct read
  · obtain ⟨window, mark, -, peers, silent, -⟩ := h
    exact lineConduct_of_awake (by simpa using awake) (by simpa using window) (by simpa using mark) (by simp [unmark, putFlight])
      (by simpa [peersAbsent] using peers) (by simpa using silent awake)

theorem endNotice_conduct (slot : Fin 24) (levels : List Bool) {s : State} (h : lineConduct s) :
    lineConduct (endNotice slot levels s) := by
  unfold endNotice
  simp only
  split
  · rename_i reads
    have awake := readsNotices_awake h reads
    split
    · split
      · exact readBackNotice_conduct _ h awake
      · exact h
    · split
      · exact slotEndSynced_conduct _ h awake
      · exact receiveSlot_conduct _ h awake
  · exact h

/-! ## Lanes, beams and the host -/

theorem hushLane_conduct (l : LaneSide) (cause : LaneCause) {s : State} (h : lineConduct s) :
    lineConduct (hushLane l cause s) := by
  refine lineConduct_mono h ?_ ?_ ?_ ?_ ?_ ?_ ?_ ?_ (fun ⟨left, right⟩ => ?_) ?_
  case refine_9 =>
    have quiet : sounds s l = false := by cases l <;> simp [sounds, laneState, left, right, isSounding]
    simpa [hushLane, quiet] using ⟨left, right⟩
  all_goals simp

theorem toggleFlash_conduct (l : LaneSide) {s : State} (h : lineConduct s) : lineConduct (toggleFlash l s) := by
  have same : s.lanes.left = .ARMED ∧ s.lanes.right = .ARMED → toggleFlash l s = s := by
    rintro ⟨left, right⟩
    cases l <;> simp [toggleFlash, laneState, left, right]
  have frame : (toggleFlash l s).field = s.field ∧ (toggleFlash l s).line = s.line ∧ (toggleFlash l s).notices = s.notices ∧
      (toggleFlash l s).supply = s.supply ∧ (toggleFlash l s).track = s.track ∧ (toggleFlash l s).access = s.access := by
    unfold toggleFlash
    (repeat' split) <;> simp
  refine lineConduct_mono h ?_ ?_ ?_ ?_ ?_ ?_ ?_ ?_ (fun armed => ?_) ?_
  case refine_9 => rw [same armed]; exact armed
  all_goals simp [frame]

theorem sampleClear_conduct (pressed : Bool) {s : State} (h : lineConduct s) : lineConduct (sampleClear pressed s) := by
  unfold sampleClear
  simp only
  split
  · exact hushLane_conduct .right _ (hushLane_conduct .left _ h)
  · exact h

theorem beamBreak_conduct {s : State} (h : lineConduct s) : lineConduct (beamBreak s) := by
  unfold beamBreak
  simp only
  split
  · exact wake_conduct .BRISK h ‹_›
  · exact dormantTimerZero_conduct h

theorem sampleBeams_conduct (hall street : Beam) {s : State} (h : lineConduct s) : lineConduct (sampleBeams hall street s) := by
  unfold sampleBeams
  simp only
  split
  · split
    · exact h
    · split
      · exact beamBreak_conduct h
      · exact h
  · exact h

theorem lineConduct_keptByHost : KeptByHost lineConduct where
  keepsPort s t same _ h := by rw [same]; exact h
  keepsWake s d h := wake_conduct .BRISK h d
  keepsBeams s t same h := by rw [same]; exact h
  keepsParam _ _ _ h := h
  keepsUnpend s h := by
    obtain ⟨window, mark, flight, peers, silent, dormant⟩ := h
    refine ⟨window, mark, flight, peers, silent, fun d => ?_⟩
    obtain ⟨line, absent, table, cache, outbox, left, right, grant, rounds, minutes, -⟩ := dormant d
    exact ⟨line, absent, table, cache, outbox, left, right, grant, rounds, minutes, rfl⟩
  keepsExcuses _ _ h := h
  keepsNotice b s awake h := by
    obtain ⟨window, mark, flight, peers, silent, -⟩ := h
    obtain ⟨line, -, flying, held⟩ :=
      (lineSteady_kept s.line s.notices.inFlight).keepsNotice b s ⟨rfl, awake, rfl, fun f => (flight f).2⟩
    rw [lineConduct, line, flying]
    exact ⟨by simpa using window, mark, fun f => ⟨(flight f).1, held (flying ▸ f)⟩, peers, by simpa using silent,
      by simp [awake]⟩
  keepsHush l _ h := hushLane_conduct l .HOST h
  keepsSound s t same h := by rw [same]; exact h
  keepsRest s _ := dormantEntry_conduct s

/-! ## Every command -/

theorem powerOnState_conduct (cause : ResetCause) (straps : Straps) (s : State) :
    lineConduct (powerOnState cause straps s) := by
  simp [lineConduct, powerOnState, State.reset, peersAbsent, noPeer]

theorem holdInReset_conduct (source : PowerSource) {s : State} (h : lineConduct s) : lineConduct (holdInReset source s) := by
  obtain ⟨window, mark, -, peers, silent, dormant⟩ := h
  exact ⟨fun w => absurd rfl w, fun m => absurd rfl m, fun f => absurd rfl f, peers, silent, dormant⟩

theorem effect_conduct (c : Instr) {s : State} (h : lineConduct s) : lineConduct (effect c s) := by
  have host := lineConduct_keptByHost
  cases frame : hostFrameOf c with
  | some f => rw [effect_hostFrame frame]; exact host.completeFrame_keeps f h
  | none =>
    cases c <;> simp only [hostFrameOf, reduceCtorEq] at frame
    case powerOnHold source => exact holdInReset_conduct source h
    case powerOn last pins => exact powerOnState_conduct _ _ s
    case markEnd began length input => exact endMark_conduct began length input h
    case roundTimerExpiry input => exact expireTimer_conduct input h
    case followingTimeout input =>
      simp only [effect, timeOutFollowing]
      split
      · exact roundStart_conduct _ _ _ h
      · exact h
    case startMarkSend line => exact reachRoundEnd_conduct line h
    case calmEntry => simpa [effect, lineConduct, peersAbsent] using h
    case trackExpiry => exact expireTracks_conduct h
    case cacheAgeing => exact roundTask_conduct .timer ⟨true, true⟩ .cacheAgeing h
    case staleNotice => exact dropStale_conduct h
    case minuteBoundary =>
      simp only [effect]
      split
      · exact h
      · exact h
    case soundLimitExpiry lane =>
      simp only [effect]
      split
      · exact hushLane_conduct lane _ h
      · exact h
    case quietMinute =>
      simp only [effect]
      split
      · rename_i due
        simp only [quietMinuteDue, Bool.and_eq_true, decide_eq_true_eq] at due
        obtain ⟨⟨awake, -⟩, -⟩ := due
        exact pendingTest_conduct (quietMinuteTurn_conduct h awake)
      · exact h
    case listenTimeout =>
      simp only [effect]
      split
      · exact lineConduct_joined h ‹_› rfl rfl rfl
      · exact h
    case lineStuck timer input => exact stickLine_conduct timer input h
    case lineStuckTimingFree timer input => exact freeTiming_conduct timer input h
    case loneRecovery => exact leaveLone_conduct h
    case timingFollowingRestored => exact followAgain_conduct h
    case slotReceived station bits => exact slotEnd_conduct station _ h
    case ownSlotReadback bits => exact readBackOwn_conduct bits h
    case requestFieldEnd levels =>
      simp only [effect, endRequests]
      split
      · rename_i synced
        have awake := lineConduct_open_awake h (.inl synced)
        have ⟨window, mark, flight, peers, silent, _⟩ := h
        exact lineConduct_of_awake awake window mark flight peers (silent awake)
      · exact h
    case noticeSlotStart slot => exact startNotice_conduct slot h
    case noticeSlotEnd slot levels => exact endNotice_conduct slot levels h
    case replyWindowEnd reception sense =>
      exact lineConduct_inWindow h (fun w => by simp [effect, closeWindow, w]) fun _ k => k.closeWindow_keeps reception sense
    case followCallEnd reception sense =>
      exact lineConduct_inWindow h (fun w => by simp [effect, endCall, w]) fun _ k => k.endCall_keeps reception sense
    case halfSweepTimeLimit sense =>
      exact lineConduct_inWindow h (fun w => by simp [effect, limitSweep, w]) fun _ k => k.limitSweep_keeps sense
    case sounderEntryEnd =>
      simp only [effect, entryEnd]
      split <;> exact h
    case sounderEndMarkerRecheck =>
      simp only [effect, recheck]
      split <;> exact h
    case flashToggle lane => exact toggleFlash_conduct lane h
    case beamChange hall street => exact sampleBeams_conduct hall street h
    case clearPress => exact sampleClear_conduct true h
    case hostFrameBad bytes => exact host.receiveBytes_keeps bytes h
    case hostByteGapTimeout before late =>
      exact host.receiveByte_keeps late (host.byteGap_keeps (host.receiveBytes_keeps before h))
    case responseSent pins =>
      exact host.responseEnd_keeps pins (fun u _ => powerOnState_conduct _ _ u) (fun _ => engineReset_conduct) h
    case reportFrameSent => exact host.reportEnd_keeps h
    case runTooShort => exact sendAfterRun_conduct h
    case beamSample hall street => exact sampleBeams_conduct hall street h
    case clearSample pressed => exact sampleClear_conduct pressed h
    case sounderSample =>
      simp only [effect, giveSample, entryEnd, recheck]
      (repeat' split) <;> exact h

/-- Settles O7: each command keeps the conduct, and the queue is no part of it. -/
theorem lineConductKept : Obligations.LineConductKept := fun _ _ h stepped =>
  step_keeps lineConduct (fun _ _ h => h) (fun c _ h => effect_conduct c h) h stepped

end Sys2Proof.Machine
end

section
/-! PROOFS. Reply windows and follow calls (O35, O36, O37, O38), the quiet line (O19) and POWER-ON (O50). -/

namespace Sys2Proof.Machine

/-! ## Commands while the part runs -/

/-- While the part runs, a command has its effect. -/
theorem exec_running (c : Instr) {s : State} (running : heldInReset s = false) : exec c s = .next (effect c s) := by
  rw [exec_eq, running]
  rfl

/-! ## The quiet line and POWER-ON -/

/-- Settles O19. -/
theorem quietLineRestores : Obligations.QuietLineRestores := by
  unfold Obligations.QuietLineRestores
  refine fun s running => ⟨fun lone => ?_, fun timed free => ?_⟩
  · rw [exec_running _ running]
    simp only [effect, leaveLone, lone, if_true, listenEntry_eq, makeRecord_eq]
    rfl
  · have due : (hasTiming s && s.line.timing = .FREE) = true := by simpa [hasTiming, free] using timed
    rw [exec_running _ running]
    simp only [effect, followAgain, due, if_true, makeRecord_eq]
    rfl

/-- The part is held once a source of POWER-ON is noted (R187). -/
theorem holdInReset_held (source : PowerSource) (s : State) : heldInReset (holdInReset source s) = true := by
  simp only [heldInReset, holdInReset, onSupply_supply]
  split
  · rename_i present
    have mem : source ∈ s.supply.heldBy := by simpa using present
    simpa using List.ne_nil_of_mem mem
  · simp

/-- A held part drives nothing and shows nothing (R187). -/
theorem held_quiet {s : State} (held : heldInReset s = true) :
    s.lamp .left = .dark ∧ s.lamp .right = .dark ∧ s.coilDriven = none ∧ s.emittersOn = false ∧ s.driverInUse = false ∧
      s.requestBit = false := by
  simp [State.lamp, State.coilDriven, State.emittersOn, State.driverInUse, State.requestBit, State.mayDrive, held]

/-- Settles O50. -/
theorem powerOnHoldsAndReleases : Obligations.PowerOnHoldsAndReleases := by
  unfold Obligations.PowerOnHoldsAndReleases
  refine fun source pins s => ⟨⟨holdInReset source s, rfl, ?_, holdInReset_held source s, ?_⟩, ?_⟩
  · simp only [holdInReset, List.contains_iff_mem]
    rfl
  · obtain ⟨left, right, coil, emitters, driver, request⟩ := held_quiet (holdInReset_held source s)
    exact ⟨left, right, coil, emitters, driver, request, rfl⟩
  · cases source <;> rfl

/-! ## Replies (R9, R13 to R15) -/

/-- The strength of a reply, limited as R13 says. -/
theorem readStrength_eq (x : Int) : readStrength x = BitVec.ofNat 7 (max 0 (min 127 x)).toNat := by
  have same : min 127 (max 0 x) = max 0 (min 127 x) := by omega
  rw [readStrength, clampInt, same]

theorem readStrength_toNat (x : Int) : ((readStrength x).toNat : Int) = max 0 (min 127 x) := by
  rw [readStrength_eq, BitVec.toNat_ofNat]
  omega

/-- A reply with a good CRC is a good reply. -/
theorem goodReply_good (item : ItemCode) (loan : LoanWord) (strength : Int) :
    goodReply (.reply item loan (tagCrc item loan) strength) =
      some { item := item, loan := loan, v := readStrength strength } := by
  simp [goodReply]

theorem goodReply_bad {item : ItemCode} {loan : LoanWord} {crc : BitVec 16} (strength : Int) (bad : crc ≠ tagCrc item loan) :
    goodReply (.reply item loan crc strength) = none := by
  simp [goodReply, bad]

/-- A good reply is one of its own item, loan word and CRC. -/
theorem goodReply_some {reception : Reception} {reply : Reply} (good : goodReply reception = some reply) :
    ∃ strength, reception = .reply reply.item reply.loan (tagCrc reply.item reply.loan) strength ∧
      reply.v = readStrength strength := by
  cases reception with
  | silence => simp [goodReply] at good
  | disturbed => simp [goodReply] at good
  | reply item loan crc strength =>
    by_cases same : crc = tagCrc item loan
    · subst same
      rw [goodReply_good] at good
      obtain rfl := Option.some.inj good
      exact ⟨strength, rfl, rfl⟩
    · simp [goodReply_bad strength same] at good

/-! ## The end of a reply window or call (R2) -/

/-- The window in flight with a half-sweep record. -/
def withSweep (half : Coil) (sweep : Sweep) (s : State) : State :=
  { s with field := { s.field with window := some { half := half, sweep := sweep } } }

/-- The half-sweep goes on, or ends as at its time limit when its work is done (R2). -/
theorem progress_exec (half : Coil) (sweep : Sweep) (done : Bool) (sense : DriveSense) {s : State}
    (running : heldInReset s = false) :
    (.next (progress half sweep done sense s) : Host.Outcome State Fault Refusal) =
      if done then exec (.halfSweepTimeLimit sense) (withSweep half sweep s) else .next (withSweep half sweep s) := by
  have held : heldInReset (withSweep half sweep s) = false := running
  cases done
  · rfl
  · rw [if_pos rfl, exec_running _ held]
    rfl

theorem afterWindow_toClose (s : State) (reception : Reception) (r : SearchSweep) :
    (afterWindow s reception r).toClose = r.toClose - 1 := by
  unfold afterWindow
  simp only
  (repeat' split) <;> rfl

theorem passRead_running (c : Coil) (seen : List ItemCode) (reply : Option Reply) {s : State}
    (running : heldInReset s = false) : heldInReset (passRead c seen reply s) = false := by
  simpa [heldInReset] using running

/-- The end of a reply window: its read goes to the track unit, its class to the record, and the last one ends the half-sweep
(R2, R9, R13). -/
theorem replyWindowEnd_exec (reception : Reception) (sense : DriveSense) {half : Coil} {r : SearchSweep} {s : State}
    (running : heldInReset s = false) (flying : s.field.window = some { half := half, sweep := .search r })
    (opened : 1 ≤ r.toClose) :
    exec (.replyWindowEnd reception sense) s =
      let t := withSweep half (.search (afterWindow s reception r)) (passRead half r.read (goodReply reception) s)
      if r.toClose = 1 then exec (.halfSweepTimeLimit sense) t else .next t := by
  have last : (r.toClose - 1 = 0) ↔ r.toClose = 1 := by omega
  rw [exec_running _ running]
  simp only [effect, closeWindow, flying]
  rw [progress_exec _ _ _ _ (passRead_running _ _ _ running)]
  simp only [afterWindow_toClose, last, decide_eq_true_eq]

/-- Without a kept read, the reply window changes the half-sweep record alone (R14, R15). -/
theorem replyWindowEnd_unread {reception : Reception} (sense : DriveSense) {half : Coil} {r : SearchSweep} {s : State}
    (running : heldInReset s = false) (flying : s.field.window = some { half := half, sweep := .search r })
    (opened : 1 ≤ r.toClose) (unread : ∀ reply, goodReply reception = some reply → readKept s r.read reply = false) :
    exec (.replyWindowEnd reception sense) s =
      let t := withSweep half (.search (afterWindow s reception r)) s
      if r.toClose = 1 then exec (.halfSweepTimeLimit sense) t else .next t := by
  have same : passRead half r.read (goodReply reception) s = s := by
    unfold passRead
    split
    · rfl
    · rename_i reply good
      simp [unread reply good]
  rw [replyWindowEnd_exec reception sense running flying opened, same]

/-- Settles O35. -/
theorem replyWindowClassed : Obligations.ReplyWindowClassed := by
  unfold Obligations.ReplyWindowClassed
  intro reception sense half r s running flying opened after closed
  have classed : ∀ r', (∀ reply, goodReply reception = some reply → readKept s r.read reply = false) →
      afterWindow s reception r = r' → exec (.replyWindowEnd reception sense) s = after r' := by
    rintro _ unread rfl
    exact replyWindowEnd_unread sense running flying opened unread
  refine ⟨?_, ?_, ?_⟩
  · rintro rfl
    exact classed _ (by simp [goodReply]) rfl
  · rintro rfl
    exact classed _ (by simp [goodReply]) rfl
  · rintro item loan crc strength rfl
    refine ⟨fun bad => ?_, ?_, ?_⟩
    · exact classed _ (by simp [goodReply_bad strength bad]) (by simp [afterWindow, goodReply_bad strength bad, closed])
    · rintro rfl faint
      have faint' : ¬s.params.readFloor ≤ (readStrength strength).toNat := by
        have := readStrength_toNat strength
        simp only [State.params]
        omega
      exact classed _ (by simp [goodReply_good, readKept, faint'])
        (by simp [afterWindow, goodReply_good, readKept, faint', closed])
    · rintro rfl seen
      exact classed _ (by simp [goodReply_good, readKept, seen]) (by simp [afterWindow, goodReply_good, readKept, seen, closed])

/-! ## Kept reads (R13, R22 to R25) -/

theorem satSucc_eq {w : Nat} (x : BitVec w) : satSucc x = if x = .allOnes w then .allOnes w else x + 1 := by
  unfold satSucc
  split
  · assumption
  · rfl

/-- A record after a kept read, field by field (R22). -/
theorem readTrack_eq (now : Round) (loan : LoanWord) (c : Coil) (v : Strength) (t : Track) :
    readTrack now loan c v t =
      { t with
        loan := loan, lastRead := now, reads := if t.reads = 255 then 255 else t.reads + 1
        sH := if c = .H then smooth t.sH v else t.sH
        sS := if c = .S then smooth t.sS v else t.sS
        mark := markRead v c t.mark } := by
  cases c <;> simp [readTrack, putStrength, strengthOn, satSucc_eq]

/-- A read of an item with a track updates it (R22). -/
theorem takeRead_known {item : ItemCode} (loan : LoanWord) (c : Coil) (v : Strength) {s : State}
    (known : ∃ x ∈ s.track.table, x.item = item) :
    takeRead item loan c v s = updTrack item (readTrack s.now loan c v) s := by
  have found : (findTrack s item).isSome = true := by simpa [findTrack] using known
  simp [takeRead, found]

/-- A read of an item with no track creates one, after an eviction from a full table (R24, R33). -/
theorem takeRead_new {item : ItemCode} (loan : LoanWord) (c : Coil) (v : Strength) {s : State}
    (unknown : ∀ x ∈ s.track.table, x.item ≠ item) :
    takeRead item loan c v s =
      createTrack item loan c v (if s.track.table.length < Config.trackCapacity then s else evict s) := by
  have missing : (findTrack s item).isSome = false := by simpa [findTrack] using unknown
  simp [takeRead, missing]

/-- A kept read in a reply window, and the half-sweep record that names its item. -/
theorem replyWindowEnd_read {item : ItemCode} (loan : LoanWord) {strength : Int} (sense : DriveSense) {half : Coil}
    {r : SearchSweep} {s : State} (running : heldInReset s = false)
    (flying : s.field.window = some { half := half, sweep := .search r }) (opened : 1 ≤ r.toClose) (fresh : item ∉ r.read)
    (loud : s.host.params.readFloor ≤ (readStrength strength).toNat) :
    exec (.replyWindowEnd (.reply item loan (tagCrc item loan) strength) sense) s =
      let t := withSweep half
        (.search { r with toClose := r.toClose - 1, closed := r.closed + 1, read := r.read ++ [item] })
        (takeRead item loan half (readStrength strength) s)
      if r.toClose = 1 then exec (.halfSweepTimeLimit sense) t else .next t := by
  have kept : readKept s r.read { item := item, loan := loan, v := readStrength strength } = true := by
    simp [readKept, fresh, State.params, loud]
  rw [replyWindowEnd_exec _ sense running flying opened]
  simp only [passRead, afterWindow, goodReply_good, kept, if_true]

/-- Settles O36. -/
theorem readUpdatesTrack : Obligations.ReadUpdatesTrack := by
  unfold Obligations.ReadUpdatesTrack
  intro item loan strength sense half r s running flying opened fresh known v loud moved readOf t
  have strong : readStrength strength = v := readStrength_eq strength
  have smoothed : ∀ b, smooth b v = moved b := fun b => by cases b <;> rfl
  have read : ∀ x : Track, readTrack s.now loan half v x = readOf x := fun x => by
    rw [readTrack_eq, smoothed, smoothed]
    cases mark : x.mark <;> simp [readOf, markRead, mark] <;> rfl
  rw [replyWindowEnd_read loan sense running flying opened fresh (strong ▸ loud), strong, takeRead_known loan half v known]
  simp only [updTrack, read]
  rfl

/-! ## Tracks made and evicted (R24, R25, R33) -/

/-- The record that a read creates is the one of R20, R21 and R25. -/
theorem newTrack_eq (s : State) (item : ItemCode) (loan : LoanWord) (c : Coil) (v : Strength) :
    newTrack s item loan c v = created s item loan c v := by
  have side : newSide s =
      if s.supply.straps.station.val ≠ 0 then (if s.supply.straps.isEnd then .LEFT else .UNSURE)
      else if s.supply.straps.isEnd then .UNSURE else .RIGHT := by
    by_cases left : s.supply.straps.station.val = 0 <;> cases right : s.supply.straps.isEnd <;>
      simp [newSide, hasLeft, hasRight, State.station, left, right]
  rw [newTrack, side]
  rfl

/-- The creation of a track: its record last, its cache entry taken over, BRISK with no quiet rounds, the dormant timer 0. -/
theorem createTrack_eq (item : ItemCode) (loan : LoanWord) (c : Coil) (v : Strength) (s : State) :
    createTrack item loan c v s =
      { s with
        track :=
          { s.track with
            table := s.track.table ++ [created s item loan c v]
            cache := s.track.cache.filter fun e => e.item ≠ item }
        access := { s.access with cadence := .BRISK, quietRounds := 0 }
        supply := { s.supply with dormantRounds := 0, quietMinutes := 0, pendingEntry := false } } := by
  simp only [createTrack, newTrack_eq]
  rfl

theorem oldestTrack_mem (now : Round) {l : List Track} {x : Track} (h : oldestTrack now l = some x) : x ∈ l := by
  induction l generalizing x with
  | nil => simp [oldestTrack] at h
  | cons t ts ih =>
    simp only [oldestTrack] at h
    split at h
    · simp_all
    · rename_i u found
      split at h
      · exact List.mem_cons_of_mem _ (ih (found.trans h))
      · simp_all

/-- The record to evict is the first of those with the oldest last-read round (R33). -/
theorem oldestTrack_split (now : Round) {before after : List Track} {x : Track}
    (older : ∀ y ∈ before, roundsSince now y.lastRead < roundsSince now x.lastRead)
    (notOlder : ∀ y ∈ after, roundsSince now y.lastRead ≤ roundsSince now x.lastRead) :
    oldestTrack now (before ++ x :: after) = some x := by
  induction before with
  | nil =>
    simp only [List.nil_append, oldestTrack]
    split
    · rfl
    · rename_i u found
      rw [if_neg (Nat.not_lt.mpr (notOlder u (oldestTrack_mem now found)))]
  | cons y ys ih =>
    simp only [List.cons_append, oldestTrack, ih fun z hz => older z (List.mem_cons_of_mem y hz)]
    rw [if_pos (older y List.mem_cons_self)]

/-- A record of a table with one record an item is the one found for its item. -/
theorem findTrack_of_split {s : State} {before after : List Track} {x : Track} (nodup : (s.track.table.map Track.item).Nodup)
    (table : s.track.table = before ++ x :: after) : findTrack s x.item = some x := by
  have first : ∀ y ∈ before, y.item ≠ x.item := by
    rw [table, List.map_append, List.map_cons, List.nodup_append] at nodup
    obtain ⟨-, -, apart⟩ := nodup
    exact fun y hy => apart _ (List.mem_map_of_mem hy) _ List.mem_cons_self
  rw [findTrack, table, List.find?_append, List.find?_eq_none.mpr (by simpa using first)]
  simp

/-- A record that fades not, with phase OPEN and no verdict, leaves without a report (R35, R56). -/
theorem expireTrack_silent {s : State} {x : Track} (found : findTrack s x.item = some x) (stays : fades s x = false)
    (phase : x.phase = .OPEN) (verdict : x.verdict = none) : expireTrack x.item s = removeTrack x.item s := by
  have unreported : reportPassage x.item s = s := by simp [reportPassage, found, phase, verdict]
  simp [expireTrack, found, stays, unreported]

/-- A table with one record an item, without the record of `x`. -/
theorem filter_item_split {before after : List Track} {x : Track} (nodup : ((before ++ x :: after).map Track.item).Nodup) :
    (before ++ x :: after).filter (fun t => t.item ≠ x.item) = before ++ after := by
  rw [List.map_append, List.map_cons, List.nodup_append, List.nodup_cons] at nodup
  obtain ⟨-, ⟨last, -⟩, first⟩ := nodup
  have kept : ∀ l : List Track, (∀ y ∈ l, y.item ≠ x.item) → l.filter (fun t => t.item ≠ x.item) = l := fun l h =>
    List.filter_eq_self.mpr fun y hy => by simpa using h y hy
  rw [List.filter_append, List.filter_cons, kept before fun y hy => first _ (List.mem_map_of_mem hy) _ List.mem_cons_self,
    kept after fun y hy same => last (same ▸ List.mem_map_of_mem hy)]
  simp

/-- The eviction of such a record (R33): the record leaves, the eviction is counted, and no report is made. -/
theorem evict_silent {s : State} {before after : List Track} {x : Track} (nodup : (s.track.table.map Track.item).Nodup)
    (table : s.track.table = before ++ x :: after)
    (older : ∀ y ∈ before, roundsSince s.now y.lastRead < roundsSince s.now x.lastRead)
    (notOlder : ∀ y ∈ after, roundsSince s.now y.lastRead ≤ roundsSince s.now x.lastRead) (stays : fades s x = false)
    (phase : x.phase = .OPEN) (verdict : x.verdict = none) :
    (evict s).track = { s.track with table := before ++ after } ∧
      (evict s).host =
        { s.host with errors := { s.host.errors with evictions := satSucc s.host.errors.evictions } } := by
  have left := expireTrack_silent (findTrack_of_split nodup table) stays phase verdict
  have kept := filter_item_split (table ▸ nodup)
  have evicted : evict s = evictionCounted (removeTrack x.item s) := by
    rw [evict, table, oldestTrack_split s.now older notOlder, ← left]
  rw [evicted]
  refine ⟨?_, ?_⟩
  · simp only [evictionCounted_frame, removeTrack, rearmBoth_frame, onTrack_track, table, kept]
  · simp only [evictionCounted, onErrors, onHost_host, removeTrack_frame]

/-- Settles O37. -/
theorem readCreatesTrack : Obligations.ReadCreatesTrack := by
  unfold Obligations.ReadCreatesTrack
  refine ⟨?_, ?_⟩
  · intro item loan strength sense half r s running flying opened fresh unknown room v loud t
    have strong : readStrength strength = v := readStrength_eq strength
    rw [replyWindowEnd_read loan sense running flying opened fresh (strong ▸ loud), strong, takeRead_new loan half v unknown,
      if_pos (show s.track.table.length < Config.trackCapacity from room), createTrack_eq]
    rfl
  · intro item loan strength sense half r s before after x running flying opened fresh nodup unknown full table older notOlder
      verdict phase balance v loud
    have strong : readStrength strength = v := readStrength_eq strength
    have stays : fades s x = false := by
      cases d : x.lastD with
      | none => simp [fades, d]
      | some d' =>
        have low : ¬(s.params.tSide : Int) ≤ d' := Int.not_le.mpr (balance d' d)
        simp [fades, d, low]
    obtain ⟨track, host⟩ := evict_silent nodup table older notOlder stays phase verdict
    have same : created (evict s) item loan half v = created s item loan half v := by
      simp [created, track]
    have evicted : takeRead item loan half v s = createTrack item loan half v (evict s) := by
      rw [takeRead_new loan half v unknown, if_neg (by simp [full, Config.trackCapacity])]
    have goesOn : ¬r.toClose = 1 := by omega
    have taken := replyWindowEnd_read loan sense running flying (by omega) fresh (strong ▸ loud)
    simp only [if_neg goesOn] at taken
    refine ⟨_, taken, ?_⟩
    rw [strong, evicted, createTrack_eq]
    simp [withSweep, track, host, same, satSucc_eq]

/-! ## Follow calls (R12) -/

/-- The end of a call: an answer goes to the track unit, the call is counted, and the last one ends the half-sweep (R2, R12). -/
theorem followCallEnd_exec (reception : Reception) (sense : DriveSense) {half : Coil} {item : ItemCode}
    {rest called answered : List ItemCode} {s : State} (running : heldInReset s = false)
    (flying : s.field.window =
      some { half := half, sweep := .follow { waiting := item :: rest, called := called, answered := answered } }) :
    exec (.followCallEnd reception sense) s =
      let reply := answerTo s item reception
      let t := withSweep half
        (.follow
          { waiting := rest, called := called ++ [item]
            answered := if reply.isSome then answered ++ [item] else answered })
        (passRead half [] reply s)
      if rest = [] then exec (.halfSweepTimeLimit sense) t else .next t := by
  rw [exec_running _ running]
  simp only [effect, endCall, flying]
  rw [progress_exec _ _ _ _ (passRead_running _ _ _ running)]
  simp only [List.isEmpty_iff]

/-- A call is answered by a good reply of its item alone, at read_floor or above (R12, R14). -/
theorem answerTo_good (s : State) (item : ItemCode) (loan : LoanWord) (strength : Int) :
    answerTo s item (.reply item loan (tagCrc item loan) strength) =
      if s.params.readFloor ≤ (readStrength strength).toNat then
        some { item := item, loan := loan, v := readStrength strength }
      else none := by
  simp [answerTo, goodReply_good, readKept]

theorem answerTo_other {s : State} {item : ItemCode} {reception : Reception}
    (other : ∀ loan strength, reception ≠ .reply item loan (tagCrc item loan) strength) :
    answerTo s item reception = none := by
  unfold answerTo
  split
  · rfl
  · rename_i reply good
    obtain ⟨strength, rfl, -⟩ := goodReply_some good
    have different : reply.item ≠ item := by
      rintro rfl
      exact other _ _ rfl
    simp [different]

/-- Settles O38. -/
theorem followCallEnds : Obligations.FollowCallEnds := by
  unfold Obligations.FollowCallEnds
  intro reception sense half item rest called answered s running flying now ends
  have missed : answerTo s item reception = none →
      exec (.followCallEnd reception sense) s = ends { s with field := now answered } := by
    intro none
    rw [followCallEnd_exec reception sense running flying, none]
    rfl
  refine ⟨fun other => missed (answerTo_other other), ?_⟩
  rintro loan strength rfl v moved readOf
  have strong : readStrength strength = v := readStrength_eq strength
  have answer := answerTo_good s item loan strength
  refine ⟨fun faint => missed ?_, fun loud known => ?_⟩
  · have faint' : ¬s.params.readFloor ≤ v.toNat := Nat.not_le.mpr faint
    rw [answer, strong, if_neg faint']
  · have loud' : s.params.readFloor ≤ v.toNat := loud
    rw [strong, if_pos loud'] at answer
    have smoothed : ∀ b, smooth b v = moved b := fun b => by cases b <;> rfl
    have read : ∀ x : Track, readTrack s.now loan half v x = readOf x := fun x => by
      rw [readTrack_eq, smoothed, smoothed]
      cases mark : x.mark <;> simp [readOf, markRead, mark] <;> rfl
    rw [followCallEnd_exec _ sense running flying, answer]
    simp only [passRead, readKept, loud', decide_true, List.contains_nil, Bool.not_false, Bool.and_self, if_true,
      takeRead_known loan half v known, updTrack, read, Option.isSome_some]
    rfl

end Sys2Proof.Machine
end

section
/-! PROOFS. The window figure, and the counts of rounds and minutes, stay in their ranges (O8). -/

namespace Sys2Proof.Machine

/-! ## The window figure (R8 to R11) -/

/-- The window figure in its range. -/
def figureInRange (f : FieldUnit) : Prop := 1 ≤ f.qx4 ∧ f.qx4 ≤ 20

/-- A half-sweep in flight fits the figure: work is left, as much as the figure gives. -/
def sweepFits (qx4 : Nat) : Sweep → Prop
  | .search r => 1 ≤ r.toClose ∧ r.closed + r.toClose = callWindows qx4 ∧ r.empty + r.collided + r.read.length ≤ r.closed
  | .follow r => r.waiting ≠ [] ∧ r.called.length + r.waiting.length ≤ Config.followCalls

/-- A half-sweep that may end: no more empty windows than the figure gives. -/
def sweepMayEnd (qx4 : Nat) : Sweep → Prop
  | .search r => r.empty ≤ callWindows qx4
  | .follow _ => True

theorem fieldFigure_iff (f : FieldUnit) :
    fieldFigure f ↔ figureInRange f ∧ ∀ w, f.window = some w → sweepFits f.qx4 w.sweep := by
  unfold fieldFigure figureInRange
  cases f.window with
  | none => simp
  | some w => cases hw : w.sweep <;> simp [hw, sweepFits]

theorem sweepFits_mayEnd {qx4 : Nat} {sweep : Sweep} (fits : sweepFits qx4 sweep) : sweepMayEnd qx4 sweep := by
  cases sweep with
  | search r =>
    obtain ⟨-, windows, counted⟩ := fits
    simp only [sweepMayEnd]
    omega
  | follow r => trivial

theorem callWindows_half_lt : ∀ q ≤ 20, 1 ≤ q → callWindows q / 2 < q := by decide

/-- Empty windows alone bring the figure down, and never by all of it (R10). -/
theorem figureAfter_inRange {q collided empty : Nat} (low : 1 ≤ q) (high : q ≤ 20) (few : empty ≤ callWindows q) :
    1 ≤ figureAfter q collided empty ∧ figureAfter q collided empty ≤ 20 := by
  have less := callWindows_half_lt q high low
  simp only [figureAfter, clampInt]
  omega

theorem windowEnd_field (s : State) : (windowEnd s).field = { s.field with window := none } := by
  have judged : ∀ l : List ItemCode, (l.foldl (fun s item => evaluate item s) s).field = s.field := fun l =>
    foldl_keeps _ _ (by simp) l s
  simp [windowEnd, judged]

theorem completeSweep_figure (c : Coil) {sweep : Sweep} {s : State} (range : figureInRange s.field)
    (mayEnd : sweepMayEnd s.field.qx4 sweep) : figureInRange (completeSweep c sweep s).field := by
  cases sweep with
  | search r =>
    have moved : (completeSweep c (.search r) s).field.qx4 = figureAfter s.field.qx4 r.collided r.empty := by
      simp only [completeSweep]
      split <;> simp
    simpa only [figureInRange, moved] using figureAfter_inRange range.1 range.2 mayEnd
  | follow r => exact range

theorem driveCheck_figure (c : Coil) (sense : DriveSense) {s : State} (range : figureInRange s.field) :
    figureInRange (driveCheck c sense s).1.field := by
  have put : ∀ st, figureInRange (putCoil c st s).field := fun st => by cases c <;> exact range
  unfold driveCheck
  split
  · split
    · exact range
    · simpa only [makeRecord_frame] using put _
  · split
    · split
      · simpa only [makeRecord_frame] using put _
      · exact put _
    · exact range

theorem calledList_length (s : State) : (calledList s).length ≤ Config.followCalls := by
  simp [calledList]

/-- The half-sweep that begins. -/
def freshSweep (kind : WindowKind) (s : State) : Sweep :=
  match kind with
  | .SEARCH => .search { toClose := callWindows s.field.qx4, closed := 0, collided := 0, empty := 0, read := [] }
  | .FOLLOW => .follow { waiting := calledList s, called := [], answered := [] }

theorem beginSweep_eq (kind : WindowKind) (c : Coil) (s : State) :
    beginSweep kind c s = s.onField fun f => { f with window := some { half := c, sweep := freshSweep kind s } } := by
  cases kind <;> rfl

theorem freshSweep_fits {kind : WindowKind} {s : State} (busy : sweepIdle (freshSweep kind s) = false) :
    sweepFits s.field.qx4 (freshSweep kind s) := by
  cases kind with
  | SEARCH => exact ⟨Nat.one_le_two_pow, by simp, by simp⟩
  | FOLLOW =>
    refine ⟨by simpa [freshSweep, sweepIdle] using busy, ?_⟩
    simpa using calledList_length s

/-- An idle half-sweep may end: a follow without a call leaves the figure. -/
theorem freshSweep_mayEnd (kind : WindowKind) (s : State) : sweepMayEnd s.field.qx4 (freshSweep kind s) := by
  cases kind <;> simp [freshSweep, sweepMayEnd]

theorem windowEnd_figure {s : State} (range : figureInRange s.field) : fieldFigure (windowEnd s).field := by
  rw [fieldFigure_iff, windowEnd_field]
  exact ⟨range, by simp⟩

theorem secondHalf_figure (kind : WindowKind) (sense : DriveSense) {s : State} (range : figureInRange s.field) :
    fieldFigure (secondHalf kind sense s).field := by
  have checked := driveCheck_figure .S sense range
  simp only [secondHalf, beginSweep_eq, onField_field]
  split
  · split
    · exact windowEnd_figure (completeSweep_figure _ checked (freshSweep_mayEnd _ _))
    · rename_i busy
      rw [fieldFigure_iff]
      refine ⟨checked, ?_⟩
      rintro _ ⟨⟩
      have fits := freshSweep_fits (by simpa using busy)
      exact fits
  · exact windowEnd_figure checked

theorem firstHalf_figure (kind : WindowKind) (sense : DriveSense) {s : State} (range : figureInRange s.field) :
    fieldFigure (firstHalf kind sense s).field := by
  have checked := driveCheck_figure .H sense range
  simp only [firstHalf, beginSweep_eq, onField_field]
  split
  · split
    · exact secondHalf_figure _ _ (completeSweep_figure _ checked (freshSweep_mayEnd _ _))
    · rename_i busy
      rw [fieldFigure_iff]
      refine ⟨checked, ?_⟩
      rintro _ ⟨⟩
      have fits := freshSweep_fits (by simpa using busy)
      exact fits
  · exact secondHalf_figure _ _ checked

theorem endHalf_figure {w : Window} (sense : DriveSense) {s : State} (range : figureInRange s.field)
    (mayEnd : sweepMayEnd s.field.qx4 w.sweep) : fieldFigure (endHalf w sense s).field := by
  have completed := completeSweep_figure w.half range mayEnd
  unfold endHalf
  simp only
  split
  · exact secondHalf_figure _ _ completed
  · exact windowEnd_figure completed

theorem cutWindow_figure {s : State} (h : fieldFigure s.field) : fieldFigure (cutWindow s).field := by
  have figure := (fieldFigure_iff _).mp h
  unfold cutWindow
  split
  · exact h
  · exact windowEnd_figure (completeSweep_figure _ figure.1 (sweepFits_mayEnd (figure.2 _ ‹_›)))

theorem limitSweep_figure (sense : DriveSense) {s : State} (h : fieldFigure s.field) :
    fieldFigure (limitSweep sense s).field := by
  have figure := (fieldFigure_iff _).mp h
  unfold limitSweep
  split
  · exact h
  · exact endHalf_figure sense figure.1 (sweepFits_mayEnd (figure.2 _ ‹_›))

theorem progress_figure (half : Coil) {sweep : Sweep} {done : Bool} (sense : DriveSense) {s : State}
    (range : figureInRange s.field) (mayEnd : sweepMayEnd s.field.qx4 sweep)
    (fits : done = false → sweepFits s.field.qx4 sweep) : fieldFigure (progress half sweep done sense s).field := by
  cases done with
  | true => exact endHalf_figure sense range mayEnd
  | false =>
    refine (fieldFigure_iff _).mpr ⟨range, ?_⟩
    rintro _ ⟨⟩
    exact fits rfl

/-- A closed reply window counts once: as empty, as collided, as a read, or not at all (R9). -/
theorem afterWindow_counts (s : State) (reception : Reception) (r : SearchSweep) :
    (afterWindow s reception r).closed = r.closed + 1 ∧ (afterWindow s reception r).toClose = r.toClose - 1 ∧
      (afterWindow s reception r).empty + (afterWindow s reception r).collided + (afterWindow s reception r).read.length ≤
        r.empty + r.collided + r.read.length + 1 := by
  unfold afterWindow
  simp only
  (repeat' split) <;> simp <;> omega

theorem closeWindow_figure (reception : Reception) (sense : DriveSense) {s : State} (h : fieldFigure s.field) :
    fieldFigure (closeWindow reception sense s).field := by
  have ⟨range, inFlight⟩ := (fieldFigure_iff _).mp h
  unfold closeWindow
  split
  · exact h
  · rename_i w flying
    split
    · exact h
    · rename_i r sweep
      obtain ⟨opened, windows, counted⟩ : sweepFits s.field.qx4 (.search r) := sweep ▸ inFlight w flying
      obtain ⟨closed, toClose, counts⟩ := afterWindow_counts s reception r
      refine progress_figure _ _ (by simpa using range) ?_ fun busy => ?_
      · simp only [sweepMayEnd, passRead_frame]
        omega
      · have more : (afterWindow s reception r).toClose ≠ 0 := by simpa using busy
        simp only [sweepFits, passRead_frame]
        omega

theorem endCall_figure (reception : Reception) (sense : DriveSense) {s : State} (h : fieldFigure s.field) :
    fieldFigure (endCall reception sense s).field := by
  have ⟨range, inFlight⟩ := (fieldFigure_iff _).mp h
  unfold endCall
  split
  · exact h
  · rename_i w flying
    split
    · exact h
    · rename_i r sweep
      obtain ⟨-, calls⟩ : sweepFits s.field.qx4 (.follow r) := sweep ▸ inFlight w flying
      split
      · exact h
      · rename_i item rest waiting
        refine progress_figure _ _ (by simpa using range) trivial fun busy => ⟨by simpa using busy, ?_⟩
        simp only [waiting, List.length_append, List.length_cons, List.length_nil] at calls ⊢
        omega

theorem rested_figure {s : State} (h : fieldFigure s.field) : fieldFigure (dormantEntry s).field := by
  rw [dormantEntry_eq, fieldFigure_iff]
  exact ⟨((fieldFigure_iff _).mp h).1, by simp [rested]⟩

theorem pendingTest_figure {s : State} (h : fieldFigure s.field) : fieldFigure (pendingTest s).field := by
  unfold pendingTest
  split
  · exact rested_figure h
  · exact h

theorem quietMinuteTurn_figure {s : State} (h : fieldFigure s.field) : fieldFigure (quietMinuteTurn s).field := by
  unfold quietMinuteTurn
  simp only
  split
  · split
    · exact rested_figure h
    · exact h
  · exact h

theorem roundTask_figure (how : RoundHow) (sense : DriveSense) (u : RoundTask) {s : State} (h : fieldFigure s.field) :
    fieldFigure (roundTask how sense u s).field := by
  have same : ∀ t : State, t.field = s.field → fieldFigure t.field := fun t e => e ▸ h
  cases u
  case windowEnd => exact cutWindow_figure h
  case dormantTimer =>
    simp only [roundTask, dormantAdvance]
    split
    · split
      · refine pendingTest_figure ?_
        split
        · exact quietMinuteTurn_figure h
        · exact h
      · exact h
    · exact h
  case windowStart =>
    simp only [roundTask, windowAtRound]
    split
    · refine firstHalf_figure _ sense ?_
      simpa using ((fieldFigure_iff _).mp h).1
    · exact h
  all_goals exact same _ (by simp [roundTask])

theorem roundStart_figure (how : RoundHow) (timer : Nat) (input : RoundInput) {s : State} (h : fieldFigure s.field) :
    fieldFigure (roundStart how timer input s).field :=
  roundStart_keeps (fun s => fieldFigure s.field) how timer input (fun _ h => h) (fun u _ h => roundTask_figure how _ u h)
    (fun _ _ _ h => h) h

theorem figure_keptByHost : KeptByHost fun s => fieldFigure s.field where
  keepsPort s t same _ h := by rw [same]; exact h
  keepsWake _ _ h := by simpa using h
  keepsBeams s t same h := by rw [same]; exact h
  keepsParam _ _ _ h := h
  keepsUnpend _ h := h
  keepsExcuses _ _ h := h
  keepsNotice _ _ _ h := by simpa using h
  keepsHush _ _ h := by simpa using h
  keepsSound s t same h := by rw [same]; exact h
  keepsRest _ h := rested_figure h

theorem reset_figure : fieldFigure State.reset.field := ⟨by decide, trivial⟩

/-! ### The commands that leave the field unit as it is -/

theorem reachRoundEnd_field (line : Level) (s : State) : (reachRoundEnd line s).field = s.field := by
  unfold reachRoundEnd
  split <;> rfl

theorem sendAfterRun_field (s : State) : (sendAfterRun s).field = s.field := by
  unfold sendAfterRun
  split <;> rfl

theorem followAgain_field (s : State) : (followAgain s).field = s.field := by
  unfold followAgain
  split
  · simp [lineQuiet]
  · rfl

theorem endRequests_field (levels : BitVec 20) (s : State) : (endRequests levels s).field = s.field := by
  unfold endRequests
  split <;> rfl

theorem startNotice_field (slot : Fin 24) (s : State) : (startNotice slot s).field = s.field := by
  unfold startNotice
  simp only
  (repeat' split) <;> rfl

theorem endNotice_field (slot : Fin 24) (levels : List Bool) (s : State) : (endNotice slot levels s).field = s.field := by
  unfold endNotice
  simp only
  (repeat' split) <;> simp [putTimer]

theorem entryEnd_field (s : State) : (entryEnd s).field = s.field := by
  unfold entryEnd
  split <;> rfl

theorem recheck_field (s : State) : (recheck s).field = s.field := by
  unfold recheck
  split <;> rfl

theorem giveSample_field (s : State) : (giveSample s).field = s.field := by
  unfold giveSample
  split
  · simp [recheck_field, entryEnd_field]
  · rfl

theorem toggleFlash_field (l : LaneSide) (s : State) : (toggleFlash l s).field = s.field := by
  unfold toggleFlash
  (repeat' split) <;> simp

theorem sampleClear_field (pressed : Bool) (s : State) : (sampleClear pressed s).field = s.field := by
  unfold sampleClear
  simp only
  split <;> simp

theorem beamBreak_field (s : State) : (beamBreak s).field = s.field := by
  unfold beamBreak
  simp only
  split <;> simp

theorem sampleBeams_field (hall street : Beam) (s : State) : (sampleBeams hall street s).field = s.field := by
  unfold sampleBeams
  simp only
  (repeat' split) <;> simp [beamBreak_field]

/-! ### The commands that start a round or abandon a window -/

/-- An abandoned window leaves the figure (R3). -/
theorem figure_abandoned {s t : State} (h : fieldFigure s.field) (none : t.field = { s.field with window := none }) :
    fieldFigure t.field := by
  rw [none, fieldFigure_iff]
  exact ⟨((fieldFigure_iff _).mp h).1, by simp⟩

theorem endMark_figure (began length : Nat) (input : RoundInput) {s : State} (h : fieldFigure s.field) :
    fieldFigure (endMark began length input s).field := by
  unfold endMark
  simp only
  split
  · exact h
  · split
    · split
      · exact roundStart_figure _ _ _ (by simpa [runEnds] using h)
      · exact roundStart_figure _ _ _ h
    · split
      · exact roundStart_figure _ _ _ h
      · exact h

theorem expireTimer_figure (input : RoundInput) {s : State} (h : fieldFigure s.field) :
    fieldFigure (expireTimer input s).field := by
  unfold expireTimer
  split
  · split
    · exact h
    · exact roundStart_figure _ _ _ h
  · split
    · exact roundStart_figure _ _ _ h
    · exact h

theorem startIfDue_figure (timer : Nat) (input : RoundInput) {s : State} (h : fieldFigure s.field) :
    fieldFigure (startIfDue timer input s).field := by
  unfold startIfDue
  split
  · exact roundStart_figure _ _ _ h
  · exact h

theorem stickLine_figure (timer : Nat) (input : RoundInput) {s : State} (h : fieldFigure s.field) :
    fieldFigure (stickLine timer input s).field := by
  unfold stickLine
  split
  · exact startIfDue_figure timer input (by simpa using h)
  · exact h

theorem freeTiming_figure (timer : Nat) (input : RoundInput) {s : State} (h : fieldFigure s.field) :
    fieldFigure (freeTiming timer input s).field := by
  unfold freeTiming
  split
  · exact startIfDue_figure timer input (by simpa using h)
  · exact h

theorem leaveLone_figure {s : State} (h : fieldFigure s.field) : fieldFigure (leaveLone s).field := by
  unfold leaveLone
  split
  · exact figure_abandoned h (by simp [abandonWindow, lineQuiet])
  · exact h

theorem readBackOwn_figure (bits : BitVec 16) {s : State} (h : fieldFigure s.field) : fieldFigure (readBackOwn bits s).field := by
  unfold readBackOwn
  simp only
  split
  · split
    · exact h
    · split
      · exact figure_abandoned h (by simp [clashEntry_eq])
      · exact h
  · exact h

/-- Every command keeps the figure: those that move the round or a window by the lemmas above, the others leave the field unit. -/
theorem effect_figure (c : Instr) {s : State} (h : fieldFigure s.field) : fieldFigure (effect c s).field := by
  have host := figure_keptByHost
  have same : ∀ {t : State}, t.field = s.field → fieldFigure t.field := fun e => e ▸ h
  cases frame : hostFrameOf c with
  | some f => rw [effect_hostFrame frame]; exact host.completeFrame_keeps f h
  | none =>
    cases c <;> simp only [hostFrameOf, reduceCtorEq] at frame
    case powerOnHold source => exact figure_abandoned h (by simp [effect, holdInReset, abandonWindow])
    case powerOn last pins => exact reset_figure
    case markEnd began length input => exact endMark_figure began length input h
    case roundTimerExpiry input => exact expireTimer_figure input h
    case followingTimeout input =>
      simp only [effect, timeOutFollowing]
      split
      · exact roundStart_figure _ _ _ h
      · exact h
    case startMarkSend line => exact same (reachRoundEnd_field line s)
    case calmEntry => exact same (calmTest_frame s).1
    case trackExpiry => exact same (expireTracks_frame s).1
    case cacheAgeing => exact same (ageCache_frame s).1
    case staleNotice => exact same (dropStale_frame s).1
    case minuteBoundary =>
      simp only [effect]
      split
      · exact same (minuteTurn_frame s).1
      · exact h
    case soundLimitExpiry lane =>
      simp only [effect]
      split
      · exact same (hushLane_frame lane _ s).1
      · exact h
    case quietMinute =>
      simp only [effect]
      split
      · exact pendingTest_figure (quietMinuteTurn_figure h)
      · exact h
    case listenTimeout =>
      simp only [effect]
      split
      · exact h
      · exact h
    case lineStuck timer input => exact stickLine_figure timer input h
    case lineStuckTimingFree timer input => exact freeTiming_figure timer input h
    case loneRecovery => exact leaveLone_figure h
    case timingFollowingRestored => exact same (followAgain_field s)
    case slotReceived station bits => exact same (slotEnd_frame station _ s).1
    case ownSlotReadback bits => exact readBackOwn_figure bits h
    case requestFieldEnd levels => exact same (endRequests_field levels s)
    case noticeSlotStart slot => exact same (startNotice_field slot s)
    case noticeSlotEnd slot levels => exact same (endNotice_field slot levels s)
    case replyWindowEnd reception sense => exact closeWindow_figure reception sense h
    case followCallEnd reception sense => exact endCall_figure reception sense h
    case halfSweepTimeLimit sense => exact limitSweep_figure sense h
    case sounderEntryEnd => exact same (entryEnd_field s)
    case sounderEndMarkerRecheck => exact same (recheck_field s)
    case flashToggle lane => exact same (toggleFlash_field lane s)
    case beamChange hall street => exact same (sampleBeams_field hall street s)
    case clearPress => exact same (sampleClear_field true s)
    case hostFrameBad bytes => exact host.receiveBytes_keeps bytes h
    case hostByteGapTimeout before late =>
      exact host.receiveByte_keeps late (host.byteGap_keeps (host.receiveBytes_keeps before h))
    case responseSent pins =>
      refine host.responseEnd_keeps pins (fun _ _ => reset_figure) (fun u hu => ?_) h
      exact (fieldFigure_iff _).mpr ⟨by simp [engineReset, figureInRange, abandonWindow],
        by simp [engineReset, abandonWindow]⟩
    case reportFrameSent => exact host.reportEnd_keeps h
    case runTooShort => exact same (sendAfterRun_field s)
    case beamSample hall street => exact same (sampleBeams_field hall street s)
    case clearSample pressed => exact same (sampleClear_field pressed s)
    case sounderSample => exact same (giveSample_field s)

end Sys2Proof.Machine
end

section
/-! PROOFS. The parameters, the sound timers and the counts of rounds and minutes stay in their ranges (O8). -/

namespace Sys2Proof.Machine

/-! ## What keeps the counts -/

/-- The counts stay in range while the parameters and the minute stay, the others stay or return to 0, and the sound timers stay
in theirs. -/
theorem counters_mono {s t : State} (h : countersInRange s) (params : t.host.params = s.host.params)
    (minute : t.verdict.minute = s.verdict.minute) (listen : t.line.listenTime = s.line.listenTime ∨ t.line.listenTime = 0)
    (quiet : t.access.quietRounds = 0 ∨
      (t.access.quietRounds = s.access.quietRounds ∧ t.access.cadence = s.access.cadence))
    (rounds : t.supply.dormantRounds = s.supply.dormantRounds ∨ t.supply.dormantRounds = 0)
    (minutes : t.supply.quietMinutes = s.supply.quietMinutes ∨ t.supply.quietMinutes = 0)
    (left : soundTimerInRange s.lanes.left → soundTimerInRange t.lanes.left)
    (right : soundTimerInRange s.lanes.right → soundTimerInRange t.lanes.right) : countersInRange t := by
  obtain ⟨hp, hm, hl, hq, hc, hr, hn, hleft, hright⟩ := h
  rw [countersInRange, params, minute]
  refine ⟨hp, hm, ?_, ?_, ?_, ?_, ?_, left hleft, right hright⟩
  · rcases listen with e | e <;> simp [e, hl]
  · rcases quiet with e | ⟨e, -⟩ <;> simp [e, hq]
  · rcases quiet with e | ⟨e, c⟩
    · exact fun _ => e
    · rw [e, c]; exact hc
  · rcases rounds with e | e
    · rw [e]; exact hr
    · simp [e, Config.minuteRounds]
  · rcases minutes with e | e <;> simp [e, hn]

/-- Changes of blocks without a count keep the counts. -/
theorem counters_frame {s t : State} (h : countersInRange s) (params : t.host.params = s.host.params)
    (verdict : t.verdict.minute = s.verdict.minute) (line : t.line.listenTime = s.line.listenTime) (access : t.access = s.access)
    (supply : t.supply = s.supply) (lanes : t.lanes = s.lanes) : countersInRange t :=
  counters_mono h params verdict (.inl line) (.inr ⟨by rw [access], by rw [access]⟩) (.inl (by rw [supply]))
    (.inl (by rw [supply])) (by rw [lanes]; exact id) (by rw [lanes]; exact id)

theorem setLane_lanes (l : LaneSide) (st : LaneState) (s : State) : (setLane l st s).lanes = (putLane l st s).lanes := by
  unfold setLane
  simp only
  (repeat' split) <;> simp

theorem putLane_counters {l : LaneSide} {st : LaneState} {s : State} (h : countersInRange s) (range : soundTimerInRange st) :
    countersInRange (putLane l st s) := by
  refine counters_mono h ?_ ?_ ?_ ?_ ?_ ?_ ?_ ?_
  case refine_7 =>
    cases l with
    | left => exact fun _ => range
    | right => exact id
  case refine_8 =>
    cases l with
    | left => exact id
    | right => exact fun _ => range
  all_goals simp

theorem setLane_counters {l : LaneSide} {st : LaneState} {s : State} (h : countersInRange s) (range : soundTimerInRange st) :
    countersInRange (setLane l st s) :=
  counters_frame (putLane_counters (l := l) h range) (by simp) (by simp) (by simp) (by simp) (by simp) (setLane_lanes l st s)

/-- A sound timer starts at the sound limit, which is in its range (R142, R178). -/
theorem counters_keptByWindows : KeptByWindows countersInRange where
  keepsTrack _ _ h := h
  keepsRecord _ _ h := counters_frame h (by simp) (by simp) (by simp) (by simp) (by simp) (by simp)
  keepsNotice _ _ h := counters_frame h (by simp) (by simp) (by simp) (by simp) (by simp) (by simp)
  keepsErrors _ _ h := h
  keepsCounts _ _ h := counters_frame h (by simp) (by simp) (by simp) (by simp) (by simp) (by simp)
  keepsLane l st s states h := by
    obtain ⟨-, -, -, -, -, -, -, -, limit, -⟩ := h.1
    rcases states with rfl | rfl | rfl
    · exact setLane_counters h trivial
    · exact setLane_counters h trivial
    · exact setLane_counters h ⟨by simp only [State.params]; omega, limit.2⟩
  keepsField _ _ h := h
  keepsPattern _ _ h := h
  keepsQuiet _ h := counters_mono h rfl rfl (.inl rfl) (.inl rfl) (.inl rfl) (.inl rfl) id id
  keepsStir _ h := counters_mono h rfl rfl (.inl rfl) (.inl rfl) (.inr rfl) (.inr rfl) id id

theorem dormantTimerZero_counters {s : State} (h : countersInRange s) : countersInRange (dormantTimerZero s) :=
  counters_mono h rfl rfl (.inl rfl) (.inr ⟨rfl, rfl⟩) (.inr rfl) (.inr rfl) id id

/-! ## Peer codes, DORMANT entry, wake -/

/-- A peer code lost re-arms a machine or leaves it (R143, R148). -/
theorem afterPeerLost_inRange (s : State) (l : LaneSide) (h : soundTimerInRange (laneState s l)) :
    soundTimerInRange (afterPeerLost s l) := by
  unfold afterPeerLost
  split
  · trivial
  · exact h

theorem observe_counters (l : LaneSide) (seen : PeerCode) {s : State} (h : countersInRange s) :
    countersInRange (observe l seen s) := by
  have put : ∀ r, countersInRange (putPeer l r s) := fun r =>
    counters_frame h (by simp) (by simp) (by simp) (by simp) (by simp) (by simp)
  simp only [observe]
  generalize (if (peerRecord s l).lastSeen = some seen then seen else (peerRecord s l).confirmed) = confirmed
  split
  · exact put _
  · refine counters_keptByWindows.takePeerCode_keeps l _ _ ?_
    split
    · exact put _
    · exact dormantTimerZero_counters (put _)

theorem handCode_counters (j : Fin 16) (o : SlotOutcome) {s : State} (h : countersInRange s) :
    countersInRange (handCode j o s) := by
  unfold handCode
  split
  · split
    · exact h
    · exact observe_counters .left _ h
  · split
    · split
      · exact h
      · exact observe_counters .right _ h
    · exact h

theorem rested_counters {s : State} (h : countersInRange s) : countersInRange (dormantEntry s) := by
  rw [dormantEntry_eq]
  exact counters_mono h rfl rfl (.inl rfl) (.inr ⟨rfl, rfl⟩) (.inr rfl) (.inr rfl) (fun _ => trivial) fun _ => trivial

theorem wake_counters (cadence : Cadence) {s : State} (h : countersInRange s) : countersInRange (wake cadence s) := by
  have left := afterPeerLost_inRange s .left
  have right := afterPeerLost_inRange s .right
  by_cases c : s.line.state = .CLASHED
  · simp only [wake, onLine_line, onAccess_line, dormantTimerZero_frame, onSupply_line, c, if_true, clearPeers_eq]
    exact counters_mono h rfl rfl (.inl rfl) (.inl rfl) (.inr rfl) (.inr rfl) left right
  · rw [wake_eq cadence s c]
    exact counters_mono h rfl rfl (.inr rfl) (.inl rfl) (.inr rfl) (.inr rfl) left right

theorem handCalm_counters (j : Fin 16) (value : Cadence) {s : State} (h : countersInRange s) :
    countersInRange (handCalm j value s) := by
  unfold handCalm
  simp only
  split
  · split
    · split
      · exact wake_counters .CALM h
      · refine dormantTimerZero_counters (counters_mono h rfl rfl (.inl rfl) ?_ (.inl rfl) (.inl rfl) id id)
        by_cases calm : s.access.cadence = .CALM <;> simp [briskEntry, calm]
    · exact h
  · exact h

theorem slotEnd_counters (j : Fin 16) (o : SlotOutcome) {s : State} (h : countersInRange s) :
    countersInRange (slotEnd j o s) := by
  unfold slotEnd
  split
  · refine handCalm_counters j _ ?_
    split
    · have coded := handCode_counters j o (s := (putSlot j o s).onLine fun u => { u with timer := slotLastBit j.val }) h
      exact counters_frame coded (by simp) (by simp) (by simp) (by simp) (by simp) (by simp)
    · exact h
  · exact h

theorem engineReset_counters {s : State} (h : countersInRange s) : countersInRange (engineReset s) := by
  refine counters_mono h ?_ ?_ ?_ ?_ ?_ ?_ ?_ ?_
  case refine_7 =>
    refine fun _ => ?_
    simp [engineReset, freshClasses, clearPeers_eq, armLanes, lanesAfterPeersLost, afterPeerLost, laneState, isHushed]
    trivial
  case refine_8 =>
    refine fun _ => ?_
    simp [engineReset, freshClasses, clearPeers_eq, armLanes, lanesAfterPeersLost, afterPeerLost, laneState, isHushed]
    trivial
  case refine_5 => exact .inr rfl
  case refine_6 => exact .inr rfl
  case refine_4 => exact .inl rfl
  all_goals simp

/-! ## The host (R178) -/

/-- Every value stored is brought into its range (R47, R178). -/
theorem storeParam_inRange {p : Params} (id v : Nat) (h : paramsInRange p) : paramsInRange (storeParam p id v) := by
  unfold storeParam
  split <;> simp only [paramsInRange, clampNat] at h ⊢ <;> omega

theorem counters_keptByHost : KeptByHost countersInRange where
  keepsPort s t same params h := by
    rw [same]
    exact counters_frame h params rfl rfl rfl rfl rfl
  keepsWake _ _ h := wake_counters .BRISK h
  keepsBeams s t same h := by rw [same]; exact h
  keepsParam id v _ h := ⟨storeParam_inRange id v h.1, h.2⟩
  keepsUnpend _ h := h
  keepsExcuses _ _ h := h
  keepsNotice b s _ h := counters_keptByWindows.keepsNotice b s h
  keepsHush l _ h := counters_keptByWindows.hushLane_keeps l .HOST h
  keepsSound s t same h := by rw [same]; exact h
  keepsRest _ h := rested_counters h

/-! ## Received notices -/

theorem dispatchNotice_counters (station : Fin 16) (body : NoticeBody) {s : State} (h : countersInRange s) :
    countersInRange (dispatchNotice station body s) := by
  cases body with
  | SIGHTING es =>
    exact counters_frame h (by simp [dispatchNotice]) (by simp [dispatchNotice]) (by simp) (by simp) (by simp) (by simp)
  | VERDICT es => exact counters_frame h (by simp) (by simp [dispatchNotice]) (by simp) (by simp) (by simp) (by simp)
  | EXCUSE es => exact foldl_holds_mem countersInRange _ es (fun e _ _ hu => counters_keptByHost.applyExcuse_keeps _ _ hu) h

theorem receiveSlot_counters (data : List Bool) {s : State} (h : countersInRange s) : countersInRange (receiveSlot data s) := by
  unfold receiveSlot checkNotice
  split
  · exact h
  · split
    · exact h
    · split
      · exact h
      · exact dispatchNotice_counters _ _ h

theorem readBackNotice_counters (data : List Bool) {s : State} (h : countersInRange s) :
    countersInRange (readBackNotice data s) :=
  counters_frame h (by simp) (by simp) (by simp) (by simp) (by simp) (by simp)

theorem classAfterSlot_counters (data : List Bool) {s : State} (h : countersInRange s) :
    countersInRange (classAfterSlot data s) := by
  unfold classAfterSlot
  split <;> exact h

theorem slotEndSynced_counters (data : List Bool) {s : State} (h : countersInRange s) :
    countersInRange (slotEndSynced data s) := by
  have read := readBackNotice_counters data h
  unfold slotEndSynced
  simp only
  split
  · exact receiveSlot_counters data (classAfterSlot_counters data read)
  · exact receiveSlot_counters data (classAfterSlot_counters data (s := unmark _) read)
  · exact read
  · exact read

theorem endNotice_counters (slot : Fin 24) (levels : List Bool) {s : State} (h : countersInRange s) :
    countersInRange (endNotice slot levels s) := by
  unfold endNotice
  simp only
  split
  · split
    · split
      · exact readBackNotice_counters _ (s := putTimer _ s) h
      · exact h
    · split
      · exact slotEndSynced_counters _ (s := putTimer _ s) h
      · exact receiveSlot_counters _ (s := putTimer _ s) h
  · exact h

/-! ## The round start -/

/-- The minute counter returns to 0 at the 3,000th round (R80). -/
theorem minuteAdvance_counters {s : State} (h : countersInRange s) : countersInRange (minuteAdvance s) := by
  obtain ⟨params, minute, rest⟩ := h
  unfold minuteAdvance
  split
  · exact ⟨params, by simp [minuteTurn, Config.minuteRounds], rest⟩
  · exact ⟨params, by simp only [onVerdict_verdict]; omega, rest⟩

theorem calmTest_counters {s : State} (h : countersInRange s) : countersInRange (calmTest s) := by
  unfold calmTest
  split
  · exact counters_mono h rfl rfl (.inl rfl) (.inl rfl) (.inl rfl) (.inl rfl) id id
  · exact h

/-- Quiet rounds of a BRISK pedestal that are not below calm_after end in CALM and 0 (R132). -/
theorem calmTest_settles {s : State} (h : countersInRange s) (awake : s.supply.dormancy = .AWAKE)
    (brisk : s.access.cadence = .BRISK) (rounds : Nat) :
    countersInRange (calmTest (s.onAccess fun a => { a with quietRounds := rounds })) := by
  have ⟨params, minute, listen, _, _, rest⟩ := h
  have ⟨_, _, _, _, _, _, _, _, _, _, ⟨_, after⟩, _⟩ := params
  by_cases due : s.host.params.calmAfter ≤ rounds
  · have calm : calmTest (s.onAccess fun a => { a with quietRounds := rounds }) =
        s.onAccess fun a => { a with cadence := .CALM, quietRounds := 0 } := by
      simp [calmTest, awake, brisk, due, State.params, State.onAccess]
    rw [calm]
    exact counters_mono h rfl rfl (.inl rfl) (.inl rfl) (.inl rfl) (.inl rfl) id id
  · have same : calmTest (s.onAccess fun a => { a with quietRounds := rounds }) =
        s.onAccess fun a => { a with quietRounds := rounds } := by
      simp [calmTest, due, State.params]
    rw [same]
    exact ⟨params, minute, listen, by simp only [onAccess_access]; omega, by simp [brisk], rest⟩

theorem quietAdvance_counters {s : State} (h : countersInRange s) : countersInRange (quietAdvance s) := by
  unfold quietAdvance
  split
  · rename_i brisk
    simp only [Bool.and_eq_true, decide_eq_true_eq] at brisk
    exact calmTest_settles h brisk.1 brisk.2 (if !s.track.table.isEmpty || beamBroken s then 0 else s.access.quietRounds + 1)
  · exact h

theorem dormantMinute_counters {s : State} (h : countersInRange s) : countersInRange (quietMinuteTurn s) := by
  have ⟨params, minute, listen, quiet, calm, rounds, minutes, lanes⟩ := h
  have turned : ∀ m, m ≤ 240 → countersInRange (s.onSupply fun u => { u with dormantRounds := 0, quietMinutes := m }) :=
    fun m hm => ⟨params, minute, listen, quiet, calm, by simp [Config.minuteRounds], hm, lanes⟩
  unfold quietMinuteTurn
  simp only
  split
  · split
    · exact rested_counters (turned _ (Nat.min_le_left _ _))
    · exact turned _ (Nat.min_le_left _ _)
  · exact turned _ (Nat.min_le_left _ _)

theorem pendingTest_counters {s : State} (h : countersInRange s) : countersInRange (pendingTest s) := by
  unfold pendingTest
  split
  · exact rested_counters h
  · exact h

theorem dormantAdvance_counters {s : State} (h : countersInRange s) : countersInRange (dormantAdvance s) := by
  unfold dormantAdvance
  split
  · split
    · refine pendingTest_counters ?_
      split
      · exact dormantMinute_counters h
      · rename_i below
        obtain ⟨params, minute, listen, quiet, calm, rounds, minutes, lanes⟩ := h
        exact ⟨params, minute, listen, quiet, calm, by simp only [onSupply_supply]; omega, minutes, lanes⟩
    · exact dormantTimerZero_counters h
  · exact h

/-- A sound timer that reaches 0 ends with its machine hushed (R144). -/
theorem soundTick_counters (l : LaneSide) {s : State} (h : countersInRange s) : countersInRange (soundTick l s) := by
  have ⟨_, _, _, _, _, _, _, left, right⟩ := h
  unfold soundTick
  split
  · split
    · rename_i t sounding
      split
      · exact counters_keptByWindows.hushLane_keeps l .LIMIT h
      · have range : soundTimerInRange (.SOUNDING t) := by
          rw [← sounding]
          cases l
          · exact left
          · exact right
        refine putLane_counters h ?_
        simp only [soundTimerInRange] at range ⊢
        omega
    · exact h
    · exact h
  · exact h

theorem windowAtRound_counters (how : RoundHow) (sense : DriveSense) {s : State} (h : countersInRange s) :
    countersInRange (windowAtRound how sense s) := by
  unfold windowAtRound
  split
  · exact counters_keptByWindows.startWindow_keeps sense (s := s.onAccess _) h
  · exact h

theorem roundTask_counters (how : RoundHow) (sense : DriveSense) (u : RoundTask) {s : State} (h : countersInRange s) :
    countersInRange (roundTask how sense u s) := by
  cases u with
  | windowEnd => exact counters_keptByWindows.cutWindow_keeps h
  | trackExpiry => exact counters_keptByWindows.expireTracks_keeps h
  | cacheAgeing => exact h
  | minuteCount => exact minuteAdvance_counters h
  | quietCount => exact quietAdvance_counters h
  | fieldClass =>
    exact counters_frame h (by simp) (by simp [roundTask]) (by simp) (by simp [roundTask]) (by simp [roundTask])
      (by simp [roundTask])
  | staleNotices => exact h
  | soundTimers => exact soundTick_counters .right (soundTick_counters .left h)
  | beamsBroken =>
    exact counters_frame h (by simp) (by simp [roundTask]) (by simp) (by simp [roundTask]) (by simp [roundTask])
      (by simp [roundTask])
  | dormantTimer => exact dormantAdvance_counters h
  | requestDecision => exact h
  | slotWord => exact h
  | windowStart => exact windowAtRound_counters how sense h

theorem roundStart_counters (how : RoundHow) (timer : Nat) (input : RoundInput) {s : State} (h : countersInRange s) :
    countersInRange (roundStart how timer input s) :=
  roundStart_keeps countersInRange how timer input (fun _ h => h) (fun u _ h => roundTask_counters how _ u h) (fun _ _ _ h => h) h

/-! ## The commands of the line -/

theorem endListen_counters {s : State} (h : countersInRange s) : countersInRange (endListen s) := by
  obtain ⟨params, minute, -, rest⟩ := h
  exact ⟨params, minute, Nat.le_refl _, rest⟩

theorem endMark_counters (began length : Nat) (input : RoundInput) {s : State} (h : countersInRange s) :
    countersInRange (endMark began length input s) := by
  have cut : ∀ u, countersInRange u → countersInRange (framingError began u) := fun u hu => by
    simp only [framingError, missSlots_eq]
    exact hu
  unfold endMark
  simp only
  split
  · exact h
  · split
    · split
      · exact roundStart_counters _ _ _ (cut _ h)
      · exact roundStart_counters _ _ _ (s := releaseDriver (runEnds s)) h
    · split
      · exact roundStart_counters _ _ _ (s := (runEnds s).onLine _) h
      · exact h

/-- The listen time is below its limit, or LISTEN ends there (R91). -/
theorem expireTimer_counters (input : RoundInput) {s : State} (h : countersInRange s) :
    countersInRange (expireTimer input s) := by
  unfold expireTimer
  split
  · split
    · exact endListen_counters h
    · rename_i below
      obtain ⟨params, minute, -, rest⟩ := h
      refine roundStart_counters _ _ _ ⟨params, minute, ?_, rest⟩
      exact (Nat.lt_of_not_le below).le
  · split
    · exact roundStart_counters _ _ _ h
    · exact h

theorem startIfDue_counters (timer : Nat) (input : RoundInput) {s : State} (h : countersInRange s) :
    countersInRange (startIfDue timer input s) := by
  unfold startIfDue
  split
  · exact roundStart_counters _ _ _ h
  · exact h

theorem stickLine_counters (timer : Nat) (input : RoundInput) {s : State} (h : countersInRange s) :
    countersInRange (stickLine timer input s) := by
  unfold stickLine
  split
  · refine startIfDue_counters timer input ?_
    refine counters_mono h (by simp) (by simp) (.inl (by simp)) (.inr (by simp)) (.inl (by simp)) (.inl (by simp)) ?_ ?_ <;>
      rw [loneEntry_eq]
    · exact afterPeerLost_inRange s .left
    · exact afterPeerLost_inRange s .right
  · exact h

theorem freeTiming_counters (timer : Nat) (input : RoundInput) {s : State} (h : countersInRange s) :
    countersInRange (freeTiming timer input s) := by
  unfold freeTiming
  split
  · refine startIfDue_counters timer input ?_
    refine counters_mono h (by simp) (by simp) (.inl (by simp)) (.inr (by simp)) (.inl (by simp)) (.inl (by simp)) ?_ ?_ <;>
      rw [freeEntry_eq] <;> by_cases clashed : s.line.state = .CLASHED <;> simp only [clashed, if_true, if_false]
    · exact afterPeerLost_inRange s .left
    · exact id
    · exact afterPeerLost_inRange s .right
    · exact id
  · exact h

theorem leaveLone_counters {s : State} (h : countersInRange s) : countersInRange (leaveLone s) := by
  have quiet : countersInRange (makeRecord (.FAULT .line .CLEARED) (abandonWindow (lineQuiet s))) :=
    counters_keptByWindows.keepsRecord _ _ h
  unfold leaveLone
  split
  · rw [listenEntry_eq]
    exact counters_mono quiet rfl rfl (.inr rfl) (.inr ⟨rfl, rfl⟩) (.inl rfl) (.inl rfl) (afterPeerLost_inRange _ .left)
      (afterPeerLost_inRange _ .right)
  · exact h

theorem followAgain_counters {s : State} (h : countersInRange s) : countersInRange (followAgain s) := by
  unfold followAgain
  split
  · exact counters_keptByWindows.keepsRecord _ _ h
  · exact h

theorem readBackOwn_counters (bits : BitVec 16) {s : State} (h : countersInRange s) : countersInRange (readBackOwn bits s) := by
  unfold readBackOwn
  simp only
  split
  · split
    · exact h
    · split
      · exact counters_keptByWindows.keepsRecord _ _ h
      · exact h
  · exact h

theorem toggleFlash_counters (l : LaneSide) {s : State} (h : countersInRange s) : countersInRange (toggleFlash l s) := by
  unfold toggleFlash
  split
  · split
    · exact putLane_counters h trivial
    · exact h
    · exact h
  · exact h

theorem sampleClear_counters (pressed : Bool) {s : State} (h : countersInRange s) : countersInRange (sampleClear pressed s) := by
  unfold sampleClear
  simp only
  split
  · exact counters_keptByWindows.hushBoth_keeps .STAFF (s := s.onLanes _) h
  · exact h

theorem beamBreak_counters {s : State} (h : countersInRange s) : countersInRange (beamBreak s) := by
  unfold beamBreak
  simp only
  split
  · exact wake_counters .BRISK (s := s.onTrack _) h
  · exact counters_keptByWindows.keepsStir _ (counters_keptByWindows.keepsTrack _ s h)

theorem sampleBeams_counters (hall street : Beam) {s : State} (h : countersInRange s) :
    countersInRange (sampleBeams hall street s) := by
  unfold sampleBeams
  simp only
  split
  · split
    · exact h
    · split
      · exact beamBreak_counters (s := (s.onBeams _).onBeams _) h
      · exact h
  · exact h

theorem holdInReset_counters (source : PowerSource) {s : State} (h : countersInRange s) :
    countersInRange (holdInReset source s) := by
  obtain ⟨params, minute, listen, quiet, calm, rest⟩ := h
  exact ⟨params, minute, listen, quiet, calm, rest⟩

theorem powerOnState_counters (cause : ResetCause) (straps : Straps) (s : State) :
    countersInRange (powerOnState cause straps s) := by
  simp [countersInRange, paramsInRange, powerOnState, State.reset, Config.minuteRounds]

/-! ## Every command -/

theorem effect_counters (c : Instr) {s : State} (h : countersInRange s) : countersInRange (effect c s) := by
  have host := counters_keptByHost
  have windows := counters_keptByWindows
  cases frame : hostFrameOf c with
  | some f => rw [effect_hostFrame frame]; exact host.completeFrame_keeps f h
  | none =>
    cases c <;> simp only [hostFrameOf, reduceCtorEq] at frame
    case powerOnHold source => exact holdInReset_counters source h
    case powerOn last pins => exact powerOnState_counters _ _ s
    case markEnd began length input => exact endMark_counters began length input h
    case roundTimerExpiry input => exact expireTimer_counters input h
    case followingTimeout input =>
      simp only [effect, timeOutFollowing]
      split
      · exact roundStart_counters _ _ _ h
      · exact h
    case startMarkSend line =>
      simp only [effect, reachRoundEnd]
      split <;> exact h
    case calmEntry => exact calmTest_counters h
    case trackExpiry => exact windows.expireTracks_keeps h
    case cacheAgeing => exact h
    case staleNotice => exact h
    case minuteBoundary =>
      simp only [effect]
      split
      · obtain ⟨params, -, rest⟩ := h
        exact ⟨params, by simp [minuteTurn, Config.minuteRounds], rest⟩
      · exact h
    case soundLimitExpiry lane =>
      simp only [effect]
      split
      · exact windows.hushLane_keeps lane _ h
      · exact h
    case quietMinute =>
      simp only [effect]
      split
      · exact pendingTest_counters (dormantMinute_counters h)
      · exact h
    case listenTimeout =>
      simp only [effect]
      split
      · exact endListen_counters h
      · exact h
    case lineStuck timer input => exact stickLine_counters timer input h
    case lineStuckTimingFree timer input => exact freeTiming_counters timer input h
    case loneRecovery => exact leaveLone_counters h
    case timingFollowingRestored => exact followAgain_counters h
    case slotReceived station bits => exact slotEnd_counters station _ h
    case ownSlotReadback bits => exact readBackOwn_counters bits h
    case requestFieldEnd levels =>
      simp only [effect, endRequests]
      split <;> exact h
    case noticeSlotStart slot =>
      simp only [effect, startNotice]
      (repeat' split) <;> exact h
    case noticeSlotEnd slot levels => exact endNotice_counters slot levels h
    case replyWindowEnd reception sense => exact windows.closeWindow_keeps reception sense h
    case followCallEnd reception sense => exact windows.endCall_keeps reception sense h
    case halfSweepTimeLimit sense => exact windows.limitSweep_keeps sense h
    case sounderEntryEnd =>
      simp only [effect, entryEnd]
      split <;> exact h
    case sounderEndMarkerRecheck =>
      simp only [effect, recheck]
      split <;> exact h
    case flashToggle lane => exact toggleFlash_counters lane h
    case beamChange hall street => exact sampleBeams_counters hall street h
    case clearPress => exact sampleClear_counters true h
    case hostFrameBad bytes => exact host.receiveBytes_keeps bytes h
    case hostByteGapTimeout before late =>
      exact host.receiveByte_keeps late (host.byteGap_keeps (host.receiveBytes_keeps before h))
    case responseSent pins =>
      exact host.responseEnd_keeps pins (fun u _ => powerOnState_counters _ _ u) (fun _ => engineReset_counters) h
    case reportFrameSent => exact host.reportEnd_keeps h
    case runTooShort =>
      simp only [effect, sendAfterRun]
      split <;> exact h
    case beamSample hall street => exact sampleBeams_counters hall street h
    case clearSample pressed => exact sampleClear_counters pressed h
    case sounderSample =>
      simp only [effect, giveSample, entryEnd, recheck]
      (repeat' split) <;> exact h

/-- Settles O8: each command keeps the figure, and each keeps the counts. -/
theorem figuresStayInRange : Obligations.FiguresStayInRange :=
  ⟨fun _ _ h stepped => step_keeps (fun s => fieldFigure s.field) (fun _ _ h => h) (fun c _ h => effect_figure c h) h stepped,
    fun _ _ h stepped => step_keeps countersInRange (fun _ _ h => h) (fun c _ h => effect_counters c h) h stepped⟩

end Sys2Proof.Machine
end

section
/-! PROOFS. The end of a half-sweep and the judgement of a window's tracks (O39). -/

namespace Sys2Proof.Machine

/-! ## The end of a half-sweep (R2, R10, R26) -/

theorem limitSweep_exec (sense : DriveSense) {w : Window} {s : State} (running : heldInReset s = false)
    (flying : s.field.window = some w) : exec (.halfSweepTimeLimit sense) s = .next (endHalf w sense s) := by
  rw [exec_running _ running]
  simp only [effect, limitSweep, flying]

theorem swept_track (sweep : Sweep) (s : State) : (swept sweep s).track = s.track := by cases sweep <;> rfl

/-- Whether the normal end of a half-sweep decays a track: a search those not read, a follow those called in vain (R26). -/
def passedOver (sweep : Sweep) (t : Track) : Bool :=
  match sweep with
  | .search r => !r.read.contains t.item
  | .follow r => r.called.contains t.item && !r.answered.contains t.item

/-- A record after the normal end of a half-sweep (R26, R27). -/
def afterSweep (c : Coil) (sweep : Sweep) (step : Nat) (t : Track) : Track :=
  if passedOver sweep t then decayTrack step c t else t

/-- The normal end of a half-sweep: what `swept` says, and the decay of the tracks it passes over. -/
theorem completeSweep_swept (c : Coil) (sweep : Sweep) (s : State) :
    completeSweep c sweep s =
      { swept sweep s with
        track := { s.track with table := s.track.table.map (afterSweep c sweep s.host.params.decayStep) } } := by
  cases sweep <;> simp only [completeSweep_eq, decayWhere, State.onTrack] <;> rfl

/-- A decay moves the strength and the mark of a record alone (R26, R27). -/
theorem decayTrack_kept (step : Nat) (c : Coil) (t : Track) :
    (decayTrack step c t).item = t.item ∧ (decayTrack step c t).verdict = t.verdict := by
  cases c <;> simp only [decayTrack] <;> split <;> simp [putStrength]

theorem afterSweep_kept (c : Coil) (sweep : Sweep) (step : Nat) (t : Track) :
    (afterSweep c sweep step t).item = t.item ∧ (afterSweep c sweep step t).verdict = t.verdict := by
  unfold afterSweep
  split
  · exact decayTrack_kept step c t
  · exact ⟨rfl, rfl⟩

theorem afterSweep_items (c : Coil) (sweep : Sweep) (step : Nat) (l : List Track) :
    (l.map (afterSweep c sweep step)).map Track.item = l.map Track.item := by
  simp [List.map_map, Function.comp_def, afterSweep_kept]

/-! ## The S half-sweep begins (R1, R8, R11) -/

theorem driveCheck_ok {c : Coil} {sense : DriveSense} {s : State} (ok : coilState s c = .OK) (band : inBand sense c = true) :
    driveCheck c sense s = (s, true) := by
  simp [driveCheck, ok, band]

/-- A half-sweep with work to do begins on an S coil that is OK and in its band. -/
theorem secondHalf_begins {kind : WindowKind} {sense : DriveSense} {s : State} (ok : s.field.coilS = .OK)
    (band : sense.sInBand = true) (busy : sweepIdle (freshSweep kind s) = false) :
    secondHalf kind sense s = s.onField fun f => { f with window := some { half := .S, sweep := freshSweep kind s } } := by
  simp [secondHalf, driveCheck_ok (c := .S) ok band, beginSweep_eq, busy]

/-- Some track of verdict NONE is called (R11). -/
theorem calledList_ne_nil {s : State} (waiting : ∃ x ∈ s.track.table, x.verdict = none) : calledList s ≠ [] := by
  obtain ⟨order, perm, -, -, items⟩ := calledList_called s
  obtain ⟨x, mem, verdict⟩ := waiting
  have called : x ∈ order := perm.mem_iff.mpr (by simp [mem, verdict])
  rw [items]
  intro none
  simp only [List.map_eq_nil_iff, List.take_eq_nil_iff] at none
  rcases none with h | h
  · simp at h
  · simp [h] at called

/-! ## Judgement of one track (R44 to R50) -/

/-- A change of the side and the verdict of a record alone. -/
def sideAndVerdict (f : Track → Track) : Prop := ∀ t, f t = { t with side := (f t).side, verdict := (f t).verdict }

/-- A record `z` that a judgement can make of the record `y`: its balance is the last D, and start side, phase, side and verdict
are the judgement's (R44 to R50). -/
def judgedTo (y z : Track) : Prop :=
  z = { y with lastD := some (balance y), startSide := z.startSide, phase := z.phase, side := z.side, verdict := z.verdict }

theorem judgedTo_item {y z : Track} (h : judgedTo y z) : z.item = y.item := by rw [h]

theorem verdictEffects_track (o : Outcome) (item : ItemCode) (side : Side) (s : State) :
    (verdictEffects o item side s).1.track = s.track := by
  cases o <;> simp only [verdictEffects]
  · simp
  · simp
  · split <;> simp

/-- A track unit with the records of an item changed. -/
def recordsChanged (item : ItemCode) (f : Track → Track) (u : TrackUnit) : TrackUnit :=
  { u with table := u.table.map fun t => if t.item = item then f t else t }

theorem updTrack_track (item : ItemCode) (f : Track → Track) (s : State) :
    (updTrack item f s).track = recordsChanged item f s.track := rfl

theorem recordsChanged_twice (item : ItemCode) (f g : Track → Track) (u : TrackUnit)
    (kept : ∀ t, t.item = item → (f t).item = item) :
    recordsChanged item g (recordsChanged item f u) = recordsChanged item (g ∘ f) u := by
  have both : ∀ t : Track, (if (if t.item = item then f t else t).item = item then g (if t.item = item then f t else t)
      else (if t.item = item then f t else t)) = if t.item = item then g (f t) else t := fun t => by
    by_cases same : t.item = item
    · simp [same, kept t same]
    · simp [same]
  simp only [recordsChanged, List.map_map, Function.comp_def, both]

/-- A change that does nothing to the records of an item. -/
theorem recordsChanged_id (item : ItemCode) (u : TrackUnit) : recordsChanged item id u = u := by
  simp [recordsChanged]

/-- Writes a verdict into a record (R69). -/
def writeVerdict (o : Outcome) (d : Direction) (lane : Option Nat) (held : Bool) (t : Track) : Track :=
  { t with verdict := some { outcome := o, direction := d, lane := lane, loanTested := t.loan, held := held } }

/-- The part after the side of a track is settled (R60, R62). -/
def sideSettled (item : ItemCode) (t : Track) (s : State) : State :=
  if settledSide s t = t.side then s else rearmBoth (updTrack item (fun u => { u with side := settledSide s t }) s)

/-- A verdict falls due for a track: its side is settled, the outcome acts, and the record is written (R50, R69). -/
theorem giveVerdict_found {item : ItemCode} (d : Direction) {s : State} {t : Track} (found : findTrack s item = some t) :
    giveVerdict item d s =
      let side := settledSide s t
      let o := outcomeOf (sideSettled item t s) item t.loan
      let acted := verdictEffects o item side (sideSettled item t s)
      updTrack item (writeVerdict o d (reportLane s side) acted.2) acted.1 := by
  simp only [giveVerdict, found]
  rfl

/-- A verdict given changes the side and the verdict of the records of its item, and no other record. -/
theorem giveVerdict_track (item : ItemCode) (d : Direction) (s : State) :
    ∃ f, sideAndVerdict f ∧ (giveVerdict item d s).track = recordsChanged item f s.track := by
  cases found : findTrack s item with
  | none => exact ⟨id, fun _ => rfl, by simp [giveVerdict, found, recordsChanged_id]⟩
  | some t =>
    rw [giveVerdict_found d found]
    simp only [updTrack_track, verdictEffects_track]
    generalize outcomeOf _ item t.loan = o
    generalize (verdictEffects o item (settledSide s t) _).2 = held
    by_cases same : settledSide s t = t.side
    · refine ⟨writeVerdict o d (reportLane s (settledSide s t)) held, fun _ => rfl, ?_⟩
      simp only [sideSettled, if_pos same]
    · refine ⟨writeVerdict o d (reportLane s (settledSide s t)) held ∘ fun u => { u with side := settledSide s t },
        fun _ => rfl, ?_⟩
      simp only [sideSettled, if_neg same, rearmBoth_frame, updTrack_track]
      exact recordsChanged_twice item _ _ _ fun _ h => h

/-- The judgement found is written, and a verdict that falls due changes side and verdict of it (R44). -/
theorem settleJudgement_track (before : Track) (j : Judgement) (s : State) (same : j.track.item = before.item) :
    ∃ f, sideAndVerdict f ∧
      (evaluate.settleJudgement before j s).track = recordsChanged before.item (fun _ => f j.track) s.track := by
  have counted : (if j.tagEntry then countTagEntry s else s).track = s.track := by split <;> simp
  unfold evaluate.settleJudgement
  simp only
  generalize hu : updTrack before.item (fun _ => j.track) (if j.tagEntry then countTagEntry s else s) = u
  have written : u.track = recordsChanged before.item (fun _ => j.track) s.track := by
    rw [← hu, updTrack_track, counted]
  have armed : (if j.track.side = before.side then u else rearmBoth u).track = u.track := by split <;> simp
  cases j.due with
  | none => exact ⟨id, fun _ => rfl, armed.trans written⟩
  | some d =>
    obtain ⟨f, only, given⟩ := giveVerdict_track before.item d (if j.track.side = before.side then u else rearmBoth u)
    refine ⟨f, only, given.trans ?_⟩
    rw [armed, written]
    exact recordsChanged_twice _ _ _ _ fun _ _ => same

theorem findTrack_item {s : State} {item : ItemCode} {t : Track} (found : findTrack s item = some t) : t.item = item := by
  simpa using List.find?_some found

/-- One track evaluated with a coil that works: its record is the judgement's, and no other record changes (R44). -/
theorem evaluate_track {item : ItemCode} {s : State} {t : Track} (found : findTrack s item = some t)
    (coil : coilMode s ≠ .noCoil) :
    ∃ z, judgedTo t z ∧ (evaluate item s).track = recordsChanged item (fun _ => z) s.track := by
  have settled : ∀ j : Judgement, judgedTo t j.track → j.track.verdict = t.verdict →
      ∃ z, judgedTo t z ∧
        (evaluate.settleJudgement t j s).track = recordsChanged item (fun _ => z) s.track := fun j judged verdict => by
    obtain ⟨f, only, written⟩ := settleJudgement_track t j s (judgedTo_item judged)
    refine ⟨f j.track, ?_, findTrack_item found ▸ written⟩
    rw [judgedTo, only j.track, judged]
  simp only [evaluate, found]
  cases mode : coilMode s with
  | noCoil => exact absurd mode coil
  | twoCoil => exact settled _ rfl rfl
  | single working => exact settled _ rfl rfl

/-! ## Judgement of a window's tracks (R38, R44) -/

theorem coilMode_congr {s t : State} (same : t.field = s.field) : coilMode t = coilMode s := by
  unfold coilMode coilFault coilState
  rw [same]

theorem coilMode_of_S {s : State} (ok : s.field.coilS = .OK) : coilMode s ≠ .noCoil := by
  have works : coilFault s .S = false := by simp [coilFault, coilState, ok]
  cases h : coilFault s .H <;> simp [coilMode, works, h]

/-- In a table with one record an item, a record found is the only one of its item. -/
theorem findTrack_unique {s : State} {item : ItemCode} {t x : Track} (nodup : (s.track.table.map Track.item).Nodup)
    (found : findTrack s item = some t) (mem : x ∈ s.track.table) (same : x.item = item) : x = t :=
  List.inj_on_of_nodup_map nodup mem (List.mem_of_find?_eq_some found) (same.trans (findTrack_item found).symm)

theorem recordsChanged_items {item : ItemCode} {z : Track} (same : z.item = item) (u : TrackUnit) :
    (recordsChanged item (fun _ => z) u).table.map Track.item = u.table.map Track.item := by
  simp only [recordsChanged, List.map_map]
  refine List.map_congr_left fun t _ => ?_
  by_cases h : t.item = item <;> simp [h, same]

/-- The judgement of a list of items, one after another: each record of them is judged, the others stay. -/
theorem evaluate_all (items : List ItemCode) {s : State} (distinct : items.Nodup) (nodup : (s.track.table.map Track.item).Nodup)
    (coil : coilMode s ≠ .noCoil) :
    ∃ f : Track → Track, (∀ t ∈ s.track.table, judgedTo t (f t)) ∧
      (items.foldl (fun s item => evaluate item s) s).track =
        { s.track with table := s.track.table.map fun t => if t.item ∈ items then f t else t } := by
  induction items generalizing s with
  | nil => exact ⟨fun t => { t with lastD := some (balance t) }, fun _ _ => rfl, by simp⟩
  | cons item rest ih =>
    obtain ⟨fresh, distinct⟩ := List.nodup_cons.mp distinct
    cases found : findTrack s item with
    | none =>
      have other : ∀ t ∈ s.track.table, t.item ≠ item := by simpa [findTrack] using found
      obtain ⟨f, judged, tracks⟩ := ih distinct nodup coil
      refine ⟨f, judged, ?_⟩
      rw [List.foldl_cons, show evaluate item s = s by simp [evaluate, found], tracks]
      simp only [TrackUnit.mk.injEq, and_true]
      exact List.map_congr_left fun t mem => by simp [other t mem]
    | some x =>
      obtain ⟨z, judgedX, written⟩ := evaluate_track found coil
      have zItem : z.item = item := (judgedTo_item judgedX).trans (findTrack_item found)
      obtain ⟨f, judged, tracks⟩ := ih (s := evaluate item s) distinct
        (by rw [written, recordsChanged_items zItem]; exact nodup)
        (by rwa [coilMode_congr (evaluate_frame item s).1])
      refine ⟨fun t => if t.item = item then z else f t, fun t mem => ?_, ?_⟩
      · by_cases same : t.item = item
        · have only := findTrack_unique nodup found mem same
          subst only
          simpa only [if_pos same] using judgedX
        · simp only [if_neg same]
          refine judged t ?_
          rw [written]
          exact List.mem_map.mpr ⟨t, mem, by simp [same]⟩
      · rw [List.foldl_cons, tracks, written]
        simp only [recordsChanged, List.map_map, TrackUnit.mk.injEq, and_true]
        refine List.map_congr_left fun t _ => ?_
        by_cases same : t.item = item
        · simp [same, zItem, fresh]
        · simp [same]

/-- A record `z` that a window end leaves of `y`: judged and its mark cleared when it was marked, else as it was (R38, R44). -/
def endedAs (y z : Track) : Prop :=
  (y.mark = .none → z = y) ∧
    (y.mark ≠ .none →
      z =
        { y with
          lastD := some (balance y), mark := .none
          startSide := z.startSide, phase := z.phase, side := z.side, verdict := z.verdict })

/-- The window end judges the marked tracks, clears the marks, and leaves the table otherwise (R17, R38, R44). -/
theorem windowEnd_track {s : State} (nodup : (s.track.table.map Track.item).Nodup) (coil : coilMode s ≠ .noCoil) :
    ∃ f : Track → Track, (∀ t ∈ s.track.table, endedAs t (f t)) ∧
      (windowEnd s).track = { s.track with table := s.track.table.map f } := by
  have distinct : ((s.track.table.filter isMarked).map Track.item).Nodup :=
    nodup.sublist (List.filter_sublist.map Track.item)
  obtain ⟨f, judged, tracks⟩ := evaluate_all _ distinct nodup coil
  have marked : ∀ t ∈ s.track.table, t.item ∈ (s.track.table.filter isMarked).map Track.item ↔ t.mark ≠ .none := by
    intro t mem
    refine ⟨fun h => ?_, fun h => List.mem_map.mpr ⟨t, by simp [mem, isMarked, h], rfl⟩⟩
    obtain ⟨u, hu, same⟩ := List.mem_map.mp h
    obtain ⟨uMem, uMarked⟩ := List.mem_filter.mp hu
    rw [← List.inj_on_of_nodup_map nodup uMem mem same]
    simpa [isMarked] using uMarked
  refine ⟨fun t => { (if t.mark ≠ .none then f t else t) with mark := .none }, fun t mem => ⟨fun h => ?_, fun h => ?_⟩, ?_⟩
  · simp only [h, ne_eq, not_true_eq_false, if_false]
    rw [← h]
  · have j := judged t mem
    rw [judgedTo] at j
    simp only [ne_eq, h, not_false_eq_true, if_true]
    rw [j]
  · unfold windowEnd
    simp only [onField_track, clearMarks, onTrack_track, buildSightings_frame, tracks,
      List.map_map, TrackUnit.mk.injEq, and_true]
    refine List.map_congr_left fun t mem => ?_
    simp only [Function.comp_apply, marked t mem]

/-! ## The statement -/

/-- A track that is to be called stays so when a half-sweep ends. -/
theorem completeSweep_waiting {c : Coil} {sweep : Sweep} {s : State} (waiting : ∃ x ∈ s.track.table, x.verdict = none) :
    ∃ x ∈ (completeSweep c sweep s).track.table, x.verdict = none := by
  obtain ⟨x, mem, verdict⟩ := waiting
  rw [completeSweep_swept]
  exact ⟨_, List.mem_map_of_mem mem, by rw [(afterSweep_kept _ _ _ _).2]; exact verdict⟩

/-- Settles O39: the H half by the S half that begins, the S half by the window end. -/
theorem searchHalfSweepEnds : Obligations.SearchHalfSweepEnds := by
  unfold Obligations.SearchHalfSweepEnds
  refine ⟨?_, ?_⟩
  · intro sense sweep s running flying ok band decayed
    have decay : ∀ x, decayTrack s.host.params.decayStep .H x = decayed x := fun x => by
      simp only [decayed, decayTrack, strengthOn]
      cases x.sH with
      | none => rfl
      | some q => cases mark : x.mark <;> simp [putStrength, Machine.decayed, markDecayed, mark]
    have begins : ∀ kind, sweepIdle (freshSweep kind (completeSweep .H sweep s)) = false →
        secondHalf kind sense (completeSweep .H sweep s) =
          (completeSweep .H sweep s).onField fun f =>
            { f with window := some { half := .S, sweep := freshSweep kind (completeSweep .H sweep s) } } := fun kind busy =>
      secondHalf_begins (by rw [completeSweep_swept]; cases sweep <;> exact ok) band busy
    rw [limitSweep_exec sense running flying]
    refine ⟨?_, ?_⟩
    · rintro r rfl figure
      have after : afterSweep .H (.search r) s.host.params.decayStep = fun x => if x.item ∈ r.read then x else decayed x :=
        funext fun x => by by_cases h : x.item ∈ r.read <;> simp [afterSweep, passedOver, h, decay]
      simp only [endHalf, sweepKind, begins .SEARCH rfl]
      rw [completeSweep_swept, after]
      rfl
    · rintro r rfl waiting
      have after : afterSweep .H (.follow r) s.host.params.decayStep =
          fun x => if x.item ∈ r.called ∧ x.item ∉ r.answered then decayed x else x :=
        funext fun x => by
          by_cases h : x.item ∈ r.called <;> by_cases h' : x.item ∈ r.answered <;>
            simp [afterSweep, passedOver, h, h', decay]
      have busy : sweepIdle (freshSweep .FOLLOW (completeSweep .H (.follow r) s)) = false := by
        simpa [freshSweep, sweepIdle] using calledList_ne_nil (completeSweep_waiting waiting)
      have called := calledList_called (completeSweep .H (.follow r) s)
      refine ⟨_, calledList (completeSweep .H (.follow r) s), rfl, ?_, ?_⟩ <;>
        simp only [endHalf, sweepKind, begins .FOLLOW busy]
      · exact called
      · simp only [freshSweep]
        rw [completeSweep_swept, after]
        rfl
  · intro sense sweep s running flying ok nodup missed decayed ended
    have decay : ∀ x, decayTrack s.host.params.decayStep .S x = decayed x := fun x => by
      simp only [decayed, decayTrack, strengthOn]
      cases x.sS with
      | none => rfl
      | some q => cases mark : x.mark <;> simp [putStrength, Machine.decayed, markDecayed, mark]
    have passes : ∀ x, passedOver sweep x = true ↔ missed x := fun x => by
      cases sweep <;> simp [passedOver, missed]
    have swept_coil : (completeSweep .S sweep s).field.coilS = .OK := by
      rw [completeSweep_swept]
      cases sweep <;> exact ok
    have works : coilMode (completeSweep .S sweep s) ≠ .noCoil := coilMode_of_S swept_coil
    have table : (completeSweep .S sweep s).track =
        { s.track with table := s.track.table.map (afterSweep .S sweep s.host.params.decayStep) } := by
      rw [completeSweep_swept]
    obtain ⟨f, each, tracks⟩ := windowEnd_track (s := completeSweep .S sweep s)
      (by rw [table, afterSweep_items]; exact nodup) works
    rw [table] at each tracks
    obtain ⟨verdict, line, access, supply, pending⟩ := windowEnd_frame (completeSweep .S sweep s)
    obtain ⟨lineBefore, verdictBefore, supplyBefore, pendingBefore⟩ :
        (completeSweep .S sweep s).line = s.line ∧ (completeSweep .S sweep s).verdict = s.verdict ∧
        (completeSweep .S sweep s).supply = s.supply ∧ (completeSweep .S sweep s).pending = s.pending := by
      rw [completeSweep_swept]
      cases sweep <;> exact ⟨rfl, rfl, rfl, rfl⟩
    refine ⟨windowEnd (completeSweep .S sweep s), by rw [limitSweep_exec sense running flying]; rfl, ?_⟩
    refine ⟨?_, ?_, ?_, ?_, ?_, ?_, ?_, ?_⟩
    · rw [windowEnd_field, completeSweep_swept]
    · rw [access, completeSweep_swept]
    · exact line.trans lineBefore
    · exact verdict.trans verdictBefore
    · exact supply.trans supplyBefore
    · exact pending.trans pendingBefore
    · rw [tracks]
    · rw [tracks, List.map_map, List.forall₂_map_right_iff, List.forall₂_same]
      intro x mem
      have judged := each _ (List.mem_map_of_mem mem)
      refine ⟨fun miss => ?_, fun miss => ?_⟩
      · have after : afterSweep .S sweep s.host.params.decayStep x = decayed x := by
          rw [afterSweep, if_pos ((passes x).mpr miss), decay]
        rw [Function.comp_apply, after]
        rwa [after] at judged
      · have after : afterSweep .S sweep s.host.params.decayStep x = x := by
          rw [afterSweep, if_neg fun h => miss ((passes x).mp h)]
        rw [Function.comp_apply, after]
        rwa [after] at judged

end Sys2Proof.Machine
end

section
/-! PROOFS. The round starts that begin a field window (O15). -/

namespace Sys2Proof.Machine

/-! ## The way to the window start (R1, R2, R36, R127, R135) -/

/-- What the parts of a round start before the window start leave of a part `s` that has no window in flight. -/
structure AwaitsWindow (s m : State) : Prop where
  field : m.field = s.field
  state : m.line.state = s.line.state
  round : m.line.round = s.line.round + 1
  grant : m.access.grant = s.access.grant
  position : m.access.patternPosition = s.access.patternPosition
  params : m.host.params = s.host.params

/-- A round start of `s` that begins a window, unless both coils are FAULT (R1, R127, R135). -/
def windowDue (how : RoundHow) (s : State) : Prop :=
  (how = .startMark ∧ s.line.state = .SYNCED ∧ s.access.grant = true) ∨
    (s.line.state = .LONE ∧
      (s.line.round + 1).toNat % (2 * s.supply.straps.reach + 1) =
        s.supply.straps.station.val % (2 * s.supply.straps.reach + 1))

theorem coilUsable_of_ok {s : State} (ok : s.field.coilH = .OK ∨ s.field.coilS = .OK) : coilUsable s = true := by
  have working : bothFault s = false := by
    rcases ok with ok | ok <;> simp [bothFault, coilFault, coilState, ok]
  simp [coilUsable, working]

/-- A due window starts, with the grant used (R127). -/
theorem windowAtRound_due {how : RoundHow} {s m : State} (sense : DriveSense) (due : windowDue how s)
    (ok : s.field.coilH = .OK ∨ s.field.coilS = .OK) (awaits : AwaitsWindow s m) (straps : m.supply.straps = s.supply.straps) :
    windowAtRound how sense m = startWindow sense (m.onAccess fun a => { a with grant := false }) := by
  have usable : coilUsable m = true := coilUsable_of_ok (by rwa [awaits.field])
  have condition : ((m.line.state = .SYNCED && how = .startMark && m.access.grant) || (m.line.state = .LONE && loneRound m)) =
      true := by
    rcases due with ⟨rfl, state, grant⟩ | ⟨state, round⟩
    · simp [awaits.state, awaits.grant, state, grant]
    · have own : loneRound m = true := by
        simp only [loneRound, State.now, State.station, awaits.round, straps, round, usable, decide_true, Bool.and_self]
      simp [awaits.state, state, own]
  simp only [windowAtRound, condition, if_true]

theorem AwaitsWindow.onSupply {s m : State} (awaits : AwaitsWindow s m) (u : SupplyUnit) :
    AwaitsWindow s (m.onSupply fun _ => u) := by
  obtain ⟨field, state, round, grant, position, params⟩ := awaits
  exact ⟨field, state, round, grant, position, params⟩

/-- Every part before the window start, the dormant timer apart, leaves what a window start awaits. -/
theorem AwaitsWindow.roundTask {how : RoundHow} {sense : DriveSense} {s m : State} (idle : s.field.window = none)
    (awaits : AwaitsWindow s m) (u : RoundTask) (notStart : u ≠ .windowStart) (notRest : u ≠ .dormantTimer) :
    AwaitsWindow s (roundTask how sense u m) := by
  have still : m.field.window = none := by rw [awaits.field, idle]
  obtain ⟨field, state, round, grant, position, params⟩ := awaits
  cases u
  case windowStart => exact absurd rfl notStart
  case dormantTimer => exact absurd rfl notRest
  case windowEnd => simpa [Machine.roundTask, cutWindow, still] using ⟨field, state, round, grant, position, params⟩
  all_goals constructor <;> simp [Machine.roundTask, *]

/-- A due round start: what holds at the window start for every part before it, and after the window start for every part that
may follow it, holds of the part that it leaves. -/
theorem roundStart_window (P Q : State → Prop) {how : RoundHow} {timer : Nat} {input : RoundInput} {s : State}
    (rest : restNotDue s) (idle : s.field.window = none) (due : windowDue how s)
    (ok : s.field.coilH = .OK ∨ s.field.coilS = .OK)
    (before : ∀ u, u ≠ .windowStart → u ≠ .dormantTimer → ∀ m, AwaitsWindow s m → P m → P (roundTask how input.sense u m))
    (beforeRest : ∀ m u, P m → P (m.onSupply fun _ => u))
    (starts : ∀ m, AwaitsWindow s m → P m → Q (startWindow input.sense (m.onAccess fun a => { a with grant := false })))
    (after : ∀ u, u ≠ .windowStart → u ≠ .dormantTimer → u ≠ .windowEnd → u ≠ .trackExpiry → ∀ m, Q m →
      Q (roundTask how input.sense u m))
    (afterRest : ∀ m u, Q m → Q (m.onSupply fun _ => u))
    (ends : ∀ slots calm m, Q m →
      Q ((m.onLine fun u => { u with requestSet := none, slots := slots }).onAccess fun a =>
        { a with grant := false, peerCalm := calm }))
    (begins : P (s.onLine fun u => { u with timer := timer, round := u.round + 1 })) :
    Q (roundStart how timer input s) := by
  obtain ⟨l, r, order, notInL, notInR⟩ := roundOrder_split input .windowStart
  have endBefore := roundOrder_before (a := .windowEnd) (by decide) order notInL
  have expiryBefore := roundOrder_before (a := .trackExpiry) (by decide) order notInL
  have nodup := roundOrder_nodup input
  rw [order, List.nodup_append] at nodup
  obtain ⟨nodupL, nodupR, apart⟩ := nodup
  have notAfter : ∀ u ∈ l, u ∉ r := fun u inL inR => apart u inL u (List.mem_cons_of_mem _ inR) rfl
  generalize starting : (s.onLine fun u => { u with timer := timer, round := u.round + 1 }) = s1 at begins
  have restS1 : restNotDue s1 := starting ▸ rest
  have awaitsS1 : AwaitsWindow s s1 := by subst starting; constructor <;> rfl
  obtain ⟨awaits, reached⟩ : AwaitsWindow s (roundTasks how input.sense l s1) ∧ P (roundTasks how input.sense l s1) :=
    roundTasks_noRest (fun m => AwaitsWindow s m ∧ P m) how input.sense l nodupL
      (fun u inL notRest m ⟨awaits, h⟩ =>
        have notStart : u ≠ .windowStart := fun e => notInL (e ▸ inL)
        ⟨awaits.roundTask idle u notStart notRest, before u notStart notRest m awaits h⟩)
      (fun m u ⟨awaits, h⟩ => ⟨awaits.onSupply u, beforeRest m u h⟩) (fun _ => restS1) ⟨awaitsS1, begins⟩
  have straps : (roundTasks how input.sense l s1).supply.straps = s.supply.straps :=
    (roundTasks_keeps (fun m => m.supply.straps) how input.sense l (by simp) s1).trans (by rw [← starting]; rfl)
  have started := starts _ awaits reached
  rw [← windowAtRound_due input.sense due ok awaits straps] at started
  have restLater : RoundTask.dormantTimer ∈ r → restNotDue (windowAtRound how input.sense (roundTasks how input.sense l s1)) := by
    intro inR
    have supply : (roundTasks how input.sense l s1).supply = s1.supply :=
      foldl_keeps_mem (fun m => m.supply) _ l (fun u inL m => by
        have notRest : u ≠ .dormantTimer := fun e => notAfter u inL (e ▸ inR)
        cases u <;> simp [roundTask] at notRest ⊢) s1
    simpa [restNotDue, supply] using restS1
  have ended := roundTasks_noRest Q how input.sense r (List.nodup_cons.mp nodupR).2
    (fun u inR notRest => after u (fun e => notInR (e ▸ inR)) notRest (fun e => notAfter _ endBefore (e ▸ inR))
      (fun e => notAfter _ expiryBefore (e ▸ inR))) afterRest restLater started
  simp only [roundStart, missSlots_eq, starting, order, List.foldl_append, List.foldl_cons]
  exact ends _ _ (roundTasks how input.sense r _) ended

/-- A command that begins a window takes a round start in which a window is due; it has changed no block but the line's and the
notices' before (R1, R87, R127, R135). -/
theorem beginsWindow_round {c : Instr} {input : RoundInput} {s : State} (running : heldInReset s = false)
    (begins : beginsWindow c input s) :
    ∃ how timer line notices, line.round = s.line.round ∧ windowDue how { s with line := line, notices := notices } ∧
      exec c s = .next (roundStart how timer input { s with line := line, notices := notices }) := by
  rcases begins with ⟨began, length, rfl, late, long, synced, grant⟩ | ⟨rfl, lone, own⟩
  · refine ⟨.startMark, length, (releaseDriver (runEnds s)).line, (releaseDriver (runEnds s)).notices, rfl,
      .inl ⟨rfl, synced, grant⟩, ?_⟩
    have marked : ¬length < 8 := by omega
    have inTail : ¬began < Config.quietTail := by simp only [Config.quietTail]; omega
    rw [exec_running _ running]
    simp only [effect, endMark, marked, inTail, if_false, followsMarks, synced, if_true]
    rfl
  · refine ⟨.timer, 0, s.line, s.notices, rfl, .inr ⟨lone, own⟩, ?_⟩
    rw [exec_running _ running]
    simp [effect, expireTimer, lone, keepsOwnTime]

/-! ## The window that begins (R5, R8, R11, R130) -/

/-- A half-sweep with work to do begins on an H coil that is OK and in its band. -/
theorem firstHalf_begins {kind : WindowKind} {sense : DriveSense} {s : State} (ok : s.field.coilH = .OK)
    (band : sense.hInBand = true) (busy : sweepIdle (freshSweep kind s) = false) :
    firstHalf kind sense s = s.onField fun f => { f with window := some { half := .H, sweep := freshSweep kind s } } := by
  simp [firstHalf, driveCheck_ok (c := .H) ok band, beginSweep_eq, busy]

theorem calledList_congr {s t : State} (table : t.track.table = s.track.table) (round : t.line.round = s.line.round) :
    calledList t = calledList s := by
  simp only [calledList, table, State.now, round]

/-- A part `t` with a window that a round start of `s` has begun on H, its marks cleared (R1, R8, R11, R38, R130). -/
structure WindowBegun (s t : State) : Prop where
  position : t.access.patternPosition = s.access.patternPosition + 1
  field : t.field =
    { s.field with
      window :=
        some
          { half := .H
            sweep :=
              if (∃ x ∈ t.track.table, x.verdict = none) ∧
                  s.host.params.pattern.getLsbD s.access.patternPosition.val = false then
                .follow { waiting := calledList t, called := [], answered := [] }
              else opened s.field.qx4 } }
  marks : ∀ x ∈ t.track.table, x.mark = .none

/-- The parts that may follow the window start leave the window, the tracks' records and the pattern position. -/
theorem roundTask_afterWindow (how : RoundHow) (sense : DriveSense) (u : RoundTask) (notStart : u ≠ .windowStart)
    (notRest : u ≠ .dormantTimer) (notEnd : u ≠ .windowEnd) (notExpiry : u ≠ .trackExpiry) (m : State) :
    (roundTask how sense u m).access.patternPosition = m.access.patternPosition ∧ (roundTask how sense u m).field = m.field ∧
      (roundTask how sense u m).track.table = m.track.table ∧ (roundTask how sense u m).line.round = m.line.round := by
  have table : (roundTask how sense u m).track.table = m.track.table := by
    cases u
    case windowStart => exact absurd rfl notStart
    case dormantTimer => exact absurd rfl notRest
    case windowEnd => exact absurd rfl notEnd
    case trackExpiry => exact absurd rfl notExpiry
    case cacheAgeing => rfl
    case beamsBroken => simp only [roundTask, beamsAtRound]; split <;> rfl
    all_goals simp [roundTask]
  have field : (roundTask how sense u m).field = m.field := by
    cases u <;> simp [roundTask] at notStart notRest notEnd ⊢
  have position : (roundTask how sense u m).access.patternPosition = m.access.patternPosition := by
    cases u <;> simp [roundTask] at notStart ⊢
  exact ⟨position, field, table, by simp⟩

/-- A window begun is so of a part with the same tracks, round and pattern position. -/
theorem WindowBegun.congr {s t u : State} (h : WindowBegun s t) (position : u.access.patternPosition = t.access.patternPosition)
    (field : u.field = t.field) (table : u.track.table = t.track.table) (round : u.line.round = t.line.round) :
    WindowBegun s u where
  position := position.trans h.position
  field := by rw [field, calledList_congr table round, table, h.field]
  marks := by rw [table]; exact h.marks

theorem windowKind_eq (s : State) :
    windowKind s =
      if (∃ x ∈ s.track.table, x.verdict = none) ∧ s.host.params.pattern.getLsbD s.access.patternPosition.val = false then
        .FOLLOW
      else .SEARCH := by
  simp [windowKind, State.params]

/-- The part as the halves of a window begin: the position advanced, the marks cleared, no grant held (R38, R127, R130). -/
def openedPart (m : State) : State :=
  clearMarks (m.onAccess fun a => { a with grant := false, patternPosition := a.patternPosition + 1 })

theorem openedPart_waiting (m : State) :
    (∃ x ∈ (openedPart m).track.table, x.verdict = none) ↔ ∃ x ∈ m.track.table, x.verdict = none := by
  simp [openedPart, clearMarks]

/-- A window starts on an H coil that is OK and in its band. -/
theorem startWindow_begun {sense : DriveSense} {s m : State} (ok : s.field.coilH = .OK) (band : sense.hInBand = true)
    (awaits : AwaitsWindow s m) :
    WindowBegun s (startWindow sense (m.onAccess fun a => { a with grant := false })) := by
  have starts : startWindow sense (m.onAccess fun a => { a with grant := false }) =
      firstHalf (windowKind m) sense (openedPart m) := rfl
  have coil : (openedPart m).field.coilH = .OK := by simpa [openedPart, clearMarks, awaits.field] using ok
  have begun : ∀ kind, sweepIdle (freshSweep kind (openedPart m)) = false →
      firstHalf kind sense (openedPart m) =
        (openedPart m).onField fun f => { f with window := some { half := .H, sweep := freshSweep kind (openedPart m) } } :=
    fun kind => firstHalf_begins coil band
  have position : (openedPart m).access.patternPosition = s.access.patternPosition + 1 := by
    simp [openedPart, clearMarks, awaits.position]
  have marks : ∀ x ∈ (openedPart m).track.table, x.mark = .none := by
    simp [openedPart, clearMarks]
  have field : (openedPart m).field = s.field := by simp [openedPart, clearMarks, awaits.field]
  rw [starts, windowKind_eq, awaits.params, awaits.position]
  simp only [← openedPart_waiting m]
  by_cases follow : (∃ x ∈ (openedPart m).track.table, x.verdict = none) ∧
      s.host.params.pattern.getLsbD s.access.patternPosition.val = false
  · rw [if_pos follow, begun .FOLLOW (by simpa [freshSweep, sweepIdle] using calledList_ne_nil follow.1)]
    refine ⟨position, ?_, marks⟩
    rw [onField_track, if_pos follow, onField_field, field]
    rfl
  · rw [if_neg follow, begun .SEARCH rfl]
    refine ⟨position, ?_, marks⟩
    rw [onField_track, if_neg follow, onField_field, field]
    simp only [freshSweep, field]
    rfl

/-! ## The statement -/

/-- Settles O15: the round start reaches the window start with the figure, the coils and the pattern as they were, and the parts
that follow it leave the window and the tracks. -/
theorem windowBegins : Obligations.WindowBegins := by
  unfold Obligations.WindowBegins
  intro c input s running rest idle ok band begins
  obtain ⟨how, timer, line, notices, round, due, taken⟩ := beginsWindow_round running begins
  have begun : WindowBegun { s with line := line, notices := notices }
      (roundStart how timer input { s with line := line, notices := notices }) :=
    roundStart_window (fun _ => True) (WindowBegun { s with line := line, notices := notices }) rest idle due (.inl ok)
      (fun _ _ _ _ _ _ => trivial) (fun _ _ _ => trivial) (fun _ awaits _ => startWindow_begun ok band awaits)
      (fun u notStart notRest notEnd notExpiry m h => by
        obtain ⟨position, field, table, round⟩ := roundTask_afterWindow how input.sense u notStart notRest notEnd notExpiry m
        exact h.congr position field table round)
      (fun _ _ h => h.congr rfl rfl rfl rfl) (fun _ _ _ h => h.congr rfl rfl rfl rfl) trivial
  obtain ⟨position, field, marks⟩ := begun
  refine ⟨_, calledList (roundStart how timer input { s with line := line, notices := notices }), taken, position, ?_, ?_, ?_,
    marks, calledList_called _, ?_⟩ <;> rw [field]
  exact ok

end Sys2Proof.Machine
end

section
/-! PROOFS. The drive checks as a half-sweep begins (O40). -/

namespace Sys2Proof.Machine

/-! ## What a drive check can find (R4 to R6) -/

theorem driveCheck_fails {c : Coil} {sense : DriveSense} {s : State} (ok : coilState s c = .OK) (band : inBand sense c = false) :
    driveCheck c sense s =
      ({ putCoil c (.FAULT s.line.round) s with host := recorded s.line.round (.FAULT (.coil c) .FAILED) s.host }, false) := by
  simp [driveCheck, ok, band, makeRecord_eq, putCoil, State.now]

theorem retryDue_fault {c : Coil} {s : State} {failed : Round} (fault : coilState s c = .FAULT failed) :
    retryDue s c = decide (250 ≤ (s.line.round - failed).toNat) := by
  simp only [retryDue, fault, Config.retryRounds, roundsSince, State.now]
  rfl

/-- Putting a coil's own state changes nothing. -/
theorem putCoil_same (c : Coil) (s : State) : putCoil c (coilState s c) s = s := by
  cases c <;> rfl

theorem driveCheck_waits {c : Coil} {sense : DriveSense} {s : State} {failed : Round} (fault : coilState s c = .FAULT failed)
    (early : (s.line.round - failed).toNat < 250) : driveCheck c sense s = (putCoil c (.FAULT failed) s, false) := by
  rw [← fault, putCoil_same]
  simp [-BitVec.toNat_sub, driveCheck, fault, retryDue_fault fault, Nat.not_le.mpr early]

theorem driveCheck_retryFails {c : Coil} {sense : DriveSense} {s : State} {failed : Round}
    (fault : coilState s c = .FAULT failed) (due : 250 ≤ (s.line.round - failed).toNat) (band : inBand sense c = false) :
    driveCheck c sense s = (putCoil c (.FAULT s.line.round) s, false) := by
  simp [-BitVec.toNat_sub, driveCheck, fault, retryDue_fault fault, due, band, State.now]

theorem driveCheck_clears {c : Coil} {sense : DriveSense} {s : State} {failed : Round}
    (fault : coilState s c = .FAULT failed) (due : 250 ≤ (s.line.round - failed).toNat) (band : inBand sense c = true) :
    driveCheck c sense s =
      ({ putCoil c .OK s with host := recorded s.line.round (.FAULT (.coil c) .CLEARED) s.host }, true) := by
  simp [-BitVec.toNat_sub, driveCheck, fault, retryDue_fault fault, due, band, makeRecord_eq, putCoil]

/-! ## Half-sweeps with an empty table -/

theorem windowEnd_empty {s : State} (empty : s.track.table = []) :
    windowEnd s = s.onField fun f => { f with window := none } := by
  have cleared : clearMarks s = s := by
    simp only [clearMarks, State.onTrack, empty, List.map_nil]
    rw [← empty]
  simp only [windowEnd, buildSightings, empty, List.filter_nil, List.filterMap_nil, List.map_nil, List.foldl_nil, List.length_nil,
    inEights, cleared]

theorem completeSweep_empty (c : Coil) (sweep : Sweep) {s : State} (empty : s.track.table = []) :
    completeSweep c sweep s = swept sweep s := by
  have same : ({ s.track with table := [] } : TrackUnit) = s.track := by rw [← empty]
  rw [completeSweep_swept, empty, List.map_nil, same, ← swept_track sweep s]

/-! ## The half-sweeps that begin or are passed over -/

/-- Passed over, the S half-sweep leaves the window end (R4, R5, R17). -/
theorem secondHalf_skips {kind : WindowKind} {sense : DriveSense} {s t : State} (check : driveCheck .S sense s = (t, false)) :
    secondHalf kind sense s = windowEnd t := by
  simp [secondHalf, check]

/-- A cleared S coil begins a search, or a follow that has no call and ends the window (R6, R11). -/
theorem secondHalf_goesOn {sense : DriveSense} {s t : State} (sweep : Sweep) (check : driveCheck .S sense s = (t, true))
    (empty : t.track.table = []) :
    secondHalf (sweepKind sweep) sense s =
      t.onField fun f =>
        { f with
          window :=
            match sweep with
            | .search _ => some { half := .S, sweep := opened f.qx4 }
            | .follow _ => none } := by
  cases sweep with
  | search r => simp [secondHalf, check, beginSweep_eq, sweepKind, freshSweep, sweepIdle]; rfl
  | follow r =>
    have none : calledList t = [] := by simp [calledList, empty]
    simp only [secondHalf, check, beginSweep_eq, sweepKind, freshSweep, none, if_true, onField_field, sweepIdle, List.isEmpty_nil]
    rw [completeSweep_empty _ _ (by simpa using empty), windowEnd_empty (by simpa [swept] using empty)]
    rfl

/-- The first half-sweep of a search that begins: H as its check passes, else S (R1, R4, R5). -/
theorem firstHalf_search {sense : DriveSense} {s t : State} {passes : Bool} (check : driveCheck .H sense s = (t, passes))
    (ok : t.field.coilS = .OK) (band : sense.sInBand = true) :
    firstHalf .SEARCH sense s =
      t.onField fun f => { f with window := some { half := if passes then .H else .S, sweep := opened f.qx4 } } := by
  cases passes with
  | true => simp [firstHalf, check, beginSweep_eq, freshSweep, sweepIdle]; rfl
  | false =>
    have begins : secondHalf .SEARCH sense t = _ := secondHalf_begins ok band rfl
    simp [firstHalf, check, begins]
    rfl

theorem swept_kept (sweep : Sweep) (s : State) :
    (swept sweep s).line.round = s.line.round ∧ (swept sweep s).host = s.host ∧
      (swept sweep s).field.coilS = s.field.coilS := by
  cases sweep <;> exact ⟨rfl, rfl, rfl⟩

/-- An H half-sweep with an empty table ends: its own end, then the S half-sweep (R1, R2). -/
theorem limitSweep_firstHalf {sense : DriveSense} {sweep : Sweep} {s : State} (running : heldInReset s = false)
    (empty : s.track.table = []) (flying : s.field.window = some { half := .H, sweep := sweep }) :
    exec (.halfSweepTimeLimit sense) s = .next (secondHalf (sweepKind sweep) sense (swept sweep s)) := by
  rw [limitSweep_exec sense running flying]
  simp only [endHalf, completeSweep_empty _ _ empty]

/-! ## A window start with an empty table -/

theorem soundTick_still {l : LaneSide} {s : State} (silent : ∀ k, laneState s l ≠ .SOUNDING k) : soundTick l s = s := by
  unfold soundTick
  cases state : laneState s l with
  | SOUNDING k => exact absurd state (silent k)
  | ARMED => simp
  | HUSHED c => simp

/-- With no machine SOUNDING, the parts that may follow the window start leave the lanes and the host port. -/
theorem roundTask_silent {how : RoundHow} {sense : DriveSense} {m : State} (left : ∀ k, m.lanes.left ≠ .SOUNDING k)
    (right : ∀ k, m.lanes.right ≠ .SOUNDING k) (u : RoundTask) (notStart : u ≠ .windowStart) (notRest : u ≠ .dormantTimer)
    (notEnd : u ≠ .windowEnd) (notExpiry : u ≠ .trackExpiry) :
    (roundTask how sense u m).lanes = m.lanes ∧ (roundTask how sense u m).host = m.host := by
  cases u
  case windowStart => exact absurd rfl notStart
  case dormantTimer => exact absurd rfl notRest
  case windowEnd => exact absurd rfl notEnd
  case trackExpiry => exact absurd rfl notExpiry
  case soundTimers =>
    simp only [roundTask, soundTick_still (l := .left) left, soundTick_still (l := .right) right, and_self]
  all_goals simp [roundTask]

/-- What a part before the window start finds when `s` has no track. -/
structure NoTracks (s m : State) : Prop where
  table : m.track.table = []
  lanes : m.lanes = s.lanes
  host : m.host = s.host

/-- With no track and no machine SOUNDING, the parts before the window start change nothing of them. -/
theorem NoTracks.roundTask {how : RoundHow} {sense : DriveSense} {s m : State} (h : NoTracks s m)
    (idle : s.field.window = none) (awaits : AwaitsWindow s m) (left : ∀ k, s.lanes.left ≠ .SOUNDING k)
    (right : ∀ k, s.lanes.right ≠ .SOUNDING k) (u : RoundTask) (notStart : u ≠ .windowStart) (notRest : u ≠ .dormantTimer) :
    NoTracks s (roundTask how sense u m) := by
  by_cases notEnd : u = .windowEnd
  · have same : cutWindow m = m := by simp [cutWindow, awaits.field, idle]
    rw [notEnd, Machine.roundTask, same]
    exact h
  by_cases notExpiry : u = .trackExpiry
  · have same : expireTracks m = m := by simp [expireTracks, h.table]
    rw [notExpiry, Machine.roundTask, same]
    exact h
  obtain ⟨-, -, table, -⟩ := roundTask_afterWindow how sense u notStart notRest notEnd notExpiry m
  obtain ⟨lanes, host⟩ := roundTask_silent (how := how) (sense := sense) (m := m) (by rwa [h.lanes]) (by rwa [h.lanes]) u
    notStart notRest notEnd notExpiry
  exact ⟨table.trans h.table, lanes.trans h.lanes, host.trans h.host⟩

/-- A part `t` that a round start of `s` leaves after its drive check of H: the coil, the half that began, the reports. -/
structure SearchBegun (s : State) (coil : CoilState) (half : Coil) (host : HostPort) (t : State) : Prop where
  field : t.field = { s.field with coilH := coil, window := some { half := half, sweep := opened s.field.qx4 } }
  position : t.access.patternPosition = s.access.patternPosition + 1
  host : t.host = host
  lanes : t.lanes = s.lanes

/-- With no track, the window that starts is a search, on H as its drive check passes, else on S (R4, R5, R130). -/
theorem startWindow_search {sense : DriveSense} {s m : State} {coil : CoilState} {half : Coil} {host : HostPort}
    (awaits : AwaitsWindow s m) (noTracks : NoTracks s m) (ok : s.field.coilS = .OK) (band : sense.sInBand = true)
    (check : ∀ b : State, b.field = s.field → b.line.round = s.line.round + 1 → b.host = s.host →
      driveCheck .H sense b = ({ b with field := { b.field with coilH := coil }, host := host }, decide (half = .H))) :
    SearchBegun s coil half host (startWindow sense (m.onAccess fun a => { a with grant := false })) := by
  have starts : startWindow sense (m.onAccess fun a => { a with grant := false }) =
      firstHalf (windowKind m) sense (openedPart m) := rfl
  have kind : windowKind m = .SEARCH := by simp [windowKind_eq, noTracks.table]
  have field : (openedPart m).field = s.field := by simp [openedPart, awaits.field]
  have checked := check (openedPart m) field (by simp [openedPart, awaits.round]) (by simp [openedPart, noTracks.host])
  rw [starts, kind, firstHalf_search checked (by simp [field, ok]) band]
  refine ⟨?_, ?_, rfl, ?_⟩
  · simp only [onField_field, field, decide_eq_true_eq]
    cases half <;> rfl
  · simp [openedPart, awaits.position]
  · simp [openedPart, noTracks.lanes]

/-- A search begun is so of a part with the same field unit, pattern position, host port and lanes. -/
theorem SearchBegun.congr {s t u : State} {coil : CoilState} {half : Coil} {host : HostPort} (h : SearchBegun s coil half host t)
    (field : u.field = t.field) (position : u.access.patternPosition = t.access.patternPosition) (port : u.host = t.host)
    (lanes : u.lanes = t.lanes) : SearchBegun s coil half host u :=
  ⟨field.trans h.field, position.trans h.position, port.trans h.host, lanes.trans h.lanes⟩

/-- A round start with no track and no machine SOUNDING leaves the search that its drive check of H begins. -/
theorem roundStart_search {how : RoundHow} {timer : Nat} {input : RoundInput} {s : State} {coil : CoilState} {half : Coil}
    {host : HostPort} (rest : restNotDue s) (idle : s.field.window = none) (due : windowDue how s) (empty : s.track.table = [])
    (left : ∀ k, s.lanes.left ≠ .SOUNDING k) (right : ∀ k, s.lanes.right ≠ .SOUNDING k) (ok : s.field.coilS = .OK)
    (band : input.sense.sInBand = true)
    (check : ∀ b : State, b.field = s.field → b.line.round = s.line.round + 1 → b.host = s.host →
      driveCheck .H input.sense b = ({ b with field := { b.field with coilH := coil }, host := host }, decide (half = .H))) :
    SearchBegun s coil half host (roundStart how timer input s) :=
  roundStart_window (NoTracks s) (SearchBegun s coil half host) rest idle due (.inr ok)
    (fun u notStart notRest _ awaits h => h.roundTask idle awaits left right u notStart notRest)
    (fun _ _ h => ⟨h.table, h.lanes, h.host⟩)
    (fun _ awaits h => startWindow_search awaits h ok band check)
    (fun u notStart notRest notEnd notExpiry m h => by
      obtain ⟨position, field, -, -⟩ := roundTask_afterWindow how input.sense u notStart notRest notEnd notExpiry m
      obtain ⟨lanes, port⟩ := roundTask_silent (how := how) (sense := input.sense) (m := m) (by rwa [h.lanes])
        (by rwa [h.lanes]) u notStart notRest notEnd notExpiry
      exact h.congr field position port lanes)
    (fun _ _ h => h.congr rfl rfl rfl rfl) (fun _ _ _ h => h.congr rfl rfl rfl rfl) ⟨empty, rfl, rfl⟩

/-! ## The statement -/

/-- Settles O40: the check of S decides between the window end and the half-sweep that begins; the check of H between the two
halves of the search that begins. -/
theorem driveCheckMarksCoil : Obligations.DriveCheckMarksCoil := by
  unfold Obligations.DriveCheckMarksCoil
  refine ⟨?_, ?_⟩
  · intro sense sweep s running empty flying done field
    have noTracks : done.track.table = [] := by rw [swept_track]; exact empty
    obtain ⟨round, host, coilS⟩ := swept_kept sweep s
    have skipped : ∀ {t : State}, driveCheck .S sense done = (t, false) → t.track.table = [] →
        exec (.halfSweepTimeLimit sense) s = .next (t.onField fun f => { f with window := none }) := fun check tracks => by
      rw [limitSweep_firstHalf running empty flying, secondHalf_skips check, windowEnd_empty tracks]
    refine ⟨fun ok band => ?_, fun failed fault early => ?_, fun failed fault due band => ?_, fun failed fault due band => ?_⟩
    · rw [skipped (driveCheck_fails (coilS.trans ok) band) noTracks, round, host]
      rfl
    · rw [skipped (driveCheck_waits (coilS.trans fault) (by rwa [round])) noTracks]
      rfl
    · rw [skipped (driveCheck_retryFails (coilS.trans fault) (by rwa [round]) band) noTracks, round]
      rfl
    · rw [limitSweep_firstHalf running empty flying,
        secondHalf_goesOn sweep (driveCheck_clears (coilS.trans fault) (by rwa [round]) band) noTracks, round, host]
      cases sweep <;> rfl
  · intro c input s running rest idle empty left right ok band begins now leaves
    obtain ⟨how, timer, line, notices, round, due, taken⟩ := beginsWindow_round running begins
    have begun : ∀ {coil half host}, (∀ b : State, b.field = s.field → b.line.round = now → b.host = s.host →
        driveCheck .H input.sense b =
          ({ b with field := { b.field with coilH := coil }, host := host }, decide (half = .H))) →
        leaves coil half host := fun {coil half host} check => by
      have h : SearchBegun { s with line := line, notices := notices } coil half host _ :=
        roundStart_search (timer := timer) rest idle due empty left right ok band fun b field when_ port =>
          check b field (when_.trans (by rw [round])) port
      exact ⟨_, taken, h.host, h.position, h.field⟩
    refine ⟨fun ok band => begun fun b field when_ port => ?_, fun failed fault early => begun fun b field when_ port => ?_,
      fun failed fault due band => begun fun b field when_ port => ?_,
      fun failed fault due band => begun fun b field when_ port => ?_⟩
    · rw [driveCheck_fails (c := .H) (by simpa [coilState, field] using ok) band, when_, port]
      rfl
    · rw [driveCheck_waits (c := .H) (by simpa [coilState, field] using fault) (by rwa [when_])]
      rw [← port]
      rfl
    · rw [driveCheck_retryFails (c := .H) (by simpa [coilState, field] using fault) (by rwa [when_]) band, when_, ← port]
      rfl
    · rw [driveCheck_clears (c := .H) (by simpa [coilState, field] using fault) (by rwa [when_]) band, when_, port]
      rfl

end Sys2Proof.Machine
end

section
/-! PROOFS. The verdict that a window end gives a track (O41). -/

namespace Sys2Proof.Machine

/-! ## Lane machines told of an alarm (R70, R142, R157) -/

theorem soundStart_playing (s : State) : (soundStart s).sounder.playing = true := by
  simp only [soundStart, onSounder_sounder, entryStart, latchEntry]
  split <;> rfl

theorem putLane_sounding {l : LaneSide} {k : Nat} {s : State} (has : hasLane s l = true) :
    anySounding (putLane l (.SOUNDING k) s) = true := by
  have sounding : sounds (putLane l (.SOUNDING k) s) l = true := by
    cases l <;> simpa [sounds, putLane, laneState, isSounding, hasLane, hasLeft, hasRight, State.station] using has
  cases l <;> simp [anySounding, sounding]

/-- A machine that sounds has the sounder playing, when it played with the machines that sounded before (R157). -/
theorem setLane_playing {l : LaneSide} {k : Nat} {s : State} (has : hasLane s l = true)
    (played : anySounding s = true → s.sounder.playing = true) : (setLane l (.SOUNDING k) s).sounder.playing = true := by
  simp only [setLane, putLane_sounding has]
  cases before : anySounding s with
  | false => exact soundStart_playing _
  | true => simpa [putLane] using played before

/-- An own alarm told to an ARMED machine is not held: the machine enters SOUNDING (R142). -/
theorem ownAlarm_armed {l : LaneSide} {s : State} (armed : laneState s l = .ARMED) :
    ownAlarm l s = (enterSounding l .OWN s, false) := by
  simp [ownAlarm, armed]

theorem enterSounding_lanes (l : LaneSide) (cause : LaneCause) (s : State) :
    (enterSounding l cause s).lanes = (putLane l (.SOUNDING s.host.params.soundLimit) s).lanes := by
  simp [enterSounding, setLane_lanes, State.params]

theorem enterSounding_host (l : LaneSide) (cause : LaneCause) (s : State) :
    (enterSounding l cause s).host = recorded s.line.round (.LANE (laneNumber s l) true cause) s.host := by
  simp [enterSounding, makeRecord_eq]

theorem enterSounding_playing {l : LaneSide} (cause : LaneCause) {s : State} (has : hasLane s l = true)
    (played : anySounding s = true → s.sounder.playing = true) : (enterSounding l cause s).sounder.playing = true := by
  simpa [enterSounding] using setLane_playing has played

/-! ## The effects of an outcome (R70 to R72) -/

theorem queueNotice_room {body : NoticeBody} {s : State} (room : s.notices.outbox.length < 8) :
    queueNotice body s =
      s.onNotices fun q => { q with outbox := q.outbox ++ [{ body := body, built := s.line.round }] } := by
  simp only [queueNotice, Config.outboxCapacity, room, if_true, State.now]

/-- A PASS on the right lane is counted there alone (R71). -/
theorem verdictEffects_pass {item : ItemCode} {side : Side} {s : State} (right : hasRight s = true) (isRight : side = .RIGHT) :
    verdictEffects .PASS item side s =
      (s.onBeams fun b => { b with counts := { b.counts with tagPasses := b.counts.tagPasses + 1 } }, false) := by
  simp [verdictEffects, countVerdict, onCounts, right, isRight]

/-- An ALARM tells its lanes, is counted, and queues its notice (R70 to R72). -/
theorem verdictEffects_alarm {item : ItemCode} {side : Side} {lanes : List LaneSide} {s : State}
    (acts : lanesOf s side = lanes) (some_lane : lanes ≠ []) (room : s.notices.outbox.length < 8) :
    verdictEffects .ALARM item side s =
      ((countVerdict .ALARM side (ownAlarms lanes s).1).onNotices fun q =>
          { q with outbox := q.outbox ++ [{ body := alarmNotice s item lanes, built := s.line.round }] },
        (ownAlarms lanes s).2) := by
  have queued := queueNotice_room (body := alarmNotice s item lanes) (s := countVerdict .ALARM side (ownAlarms lanes s).1)
    (by simpa using room)
  simp only [verdictEffects, acts, List.isEmpty_iff, some_lane, if_false, queued]
  simp

/-- An ALARM on the left lane alone, its machine ARMED (R63, R70 to R72, R142). -/
theorem verdictEffects_left {item : ItemCode} {side : Side} {s : State} (left : hasLane s .left = true)
    (armed : s.lanes.left = .ARMED) (room : s.notices.outbox.length < 8) (isLeft : side = .LEFT) :
    verdictEffects .ALARM item side s =
      ((enterSounding .left .OWN s).onNotices fun q =>
          { q with
            outbox :=
              q.outbox ++
                [{ body := .VERDICT [{ item := item, lane := BitVec.ofNat 4 (laneNumber s .left), verdict := 1 }]
                   built := s.line.round }] },
        false) := by
  have acts : lanesOf s side = [.left] := by simp [lanesOf, left, isLeft]
  have told : ownAlarms [.left] s = (enterSounding .left .OWN s, false) := by
    simp only [ownAlarms, ownAlarm_armed (l := .left) armed, Bool.or_false]
  rw [verdictEffects_alarm acts (by simp) room, told]
  simp [countVerdict, isLeft, alarmNotice]

/-- An ALARM on both lanes, both machines ARMED (R63, R70 to R72, R142). -/
theorem verdictEffects_both {item : ItemCode} {side : Side} {s : State} (left : hasLane s .left = true)
    (right : hasRight s = true) (armedLeft : s.lanes.left = .ARMED) (armedRight : s.lanes.right = .ARMED)
    (room : s.notices.outbox.length < 8) (unsure : side = .UNSURE) :
    verdictEffects .ALARM item side s =
      (((enterSounding .right .OWN (enterSounding .left .OWN s)).onBeams fun b =>
            { b with counts := { b.counts with tagAlarms := b.counts.tagAlarms + 1 } }).onNotices fun q =>
          { q with
            outbox :=
              q.outbox ++
                [{ body :=
                     .VERDICT
                       [{ item := item, lane := BitVec.ofNat 4 (laneNumber s .left), verdict := 1 },
                         { item := item, lane := BitVec.ofNat 4 (laneNumber s .right), verdict := 1 }]
                   built := s.line.round }] },
        false) := by
  have acts : lanesOf s side = [.left, .right] := by simp [lanesOf, show hasLeft s = true from left, hasLane, right, unsure]
  have still : laneState (enterSounding .left .OWN s) .right = .ARMED := by
    simpa [laneState, enterSounding_lanes, putLane] using armedRight
  have told : ownAlarms [.left, .right] s = (enterSounding .right .OWN (enterSounding .left .OWN s), false) := by
    simp only [ownAlarms, ownAlarm_armed (l := .left) armedLeft, ownAlarm_armed still, Bool.or_false]
  have counts : hasRight (enterSounding .right .OWN (enterSounding .left .OWN s)) = true := by
    simpa [hasRight] using right
  rw [verdictEffects_alarm acts (by simp) room, told]
  simp [countVerdict, unsure, onCounts, counts, alarmNotice]

/-! ## A window end with one track read (R17, R38, R44, R109) -/

/-- The part with a table of one record. -/
def withTrack (y : Track) (s : State) : State := s.onTrack fun u => { u with table := [y] }

theorem updTrack_single {x : Track} {s : State} (table : s.track.table = [x]) (f : Track → Track) :
    updTrack x.item f s = withTrack (f x) s := by
  simp [updTrack, withTrack, State.onTrack, table]

/-- A judgement that makes a verdict due and leaves the side gives the verdict to the record it has written (R44, R50). -/
theorem settleJudgement_due {x : Track} {j : Judgement} {d : Direction} {s : State} (table : s.track.table = [x])
    (noEntry : j.tagEntry = false) (side : j.track.side = x.side) (due : j.due = some d) :
    evaluate.settleJudgement x j s = giveVerdict x.item d (withTrack j.track s) := by
  simp [evaluate.settleJudgement, noEntry, side, due, updTrack_single table]

/-- A verdict given to the one track, whose side is settled already. -/
theorem giveVerdict_single {y : Track} {d : Direction} {s a : State} {o : Outcome} {held : Bool} (table : s.track.table = [y])
    (settled : settledSide s y = y.side) (outcome : outcomeOf s y.item y.loan = o)
    (acts : verdictEffects o y.item y.side s = (a, held)) :
    giveVerdict y.item d s = withTrack (writeVerdict o d (reportLane s y.side) held y) a := by
  have found : findTrack s y.item = some y := by simp [findTrack, table]
  have kept : a.track = s.track := by
    have := verdictEffects_track o y.item y.side s
    rwa [acts] at this
  rw [giveVerdict_found d found]
  simp only [sideSettled, settled, if_true, outcome, acts]
  exact updTrack_single (kept ▸ table) _

/-- A window end that leaves one record, marked read: its SIGHTING notice is queued and its mark cleared (R38, R109). -/
theorem windowEnd_single {x z : Track} {best : Strength} {c : Coil} {s a : State} (table : s.track.table = [x])
    (marked : x.mark = .read best c) (judged : evaluate x.item s = withTrack z a) (mark : z.mark = .read best c)
    (room : a.notices.outbox.length < 8) :
    windowEnd s =
      { a with
        field := { a.field with window := none }
        track := { a.track with table := [{ z with mark := .none }] }
        notices :=
          { a.notices with
            outbox :=
              a.notices.outbox ++
                [{ body := .SIGHTING [{ item := z.item, best := best, coil := c }], built := a.line.round }] } } := by
  have sighting : sightingOf z = some { item := z.item, best := best, coil := c } := by simp [sightingOf, mark]
  have queued := queueNotice_room (body := .SIGHTING [{ item := z.item, best := best, coil := c }]) (s := withTrack z a) room
  have built : buildSightings (withTrack z a) =
      queueNotice (.SIGHTING [{ item := z.item, best := best, coil := c }]) (withTrack z a) := by
    simp [buildSightings, withTrack, sighting, inEights]
  have isRead : isMarked x = true := by simp [isMarked, marked]
  simp only [windowEnd, table, List.filter_cons, isRead, if_true, List.filter_nil, List.map_cons, List.map_nil, List.foldl_cons,
    List.foldl_nil, judged, built, queued]
  rfl

/-- A window end at which the one track, read in the window, takes its verdict (R44, R50, R69, R109). -/
theorem windowEnd_verdict {x y : Track} {best : Strength} {c : Coil} {d : Direction} {o : Outcome} {held : Bool} {s a : State}
    (table : s.track.table = [x]) (marked : x.mark = .read best c) (item : y.item = x.item) (mark : y.mark = x.mark)
    (judged : evaluate x.item s = giveVerdict x.item d (withTrack y s))
    (settled : settledSide (withTrack y s) y = y.side) (outcome : outcomeOf (withTrack y s) y.item y.loan = o)
    (acts : verdictEffects o y.item y.side (withTrack y s) = (a, held)) (room : a.notices.outbox.length < 8) :
    windowEnd s =
      { a with
        field := { a.field with window := none }
        track := { s.track with table := [{ writeVerdict o d (reportLane s y.side) held y with mark := .none }] }
        notices :=
          { a.notices with
            outbox :=
              a.notices.outbox ++
                [{ body := .SIGHTING [{ item := x.item, best := best, coil := c }], built := a.line.round }] } } := by
  have given := judged.trans (item ▸ giveVerdict_single (d := d) rfl settled outcome acts)
  have kept : a.track = (withTrack y s).track := by
    have := verdictEffects_track o y.item y.side (withTrack y s)
    rwa [acts] at this
  rw [windowEnd_single table marked given (mark.trans marked) room, kept, ← item]
  rfl

theorem completeSweep_answered {c : Coil} {sweep : Sweep} {x : Track} {s : State} (table : s.track.table = [x])
    (answered : passedOver sweep x = false) : completeSweep c sweep s = swept sweep s := by
  have kept : afterSweep c sweep s.host.params.decayStep x = x := by simp [afterSweep, answered]
  have same : ({ s.track with table := [x] } : TrackUnit) = s.track := by rw [← table]
  rw [completeSweep_swept, table, List.map_cons, List.map_nil, kept, same, ← swept_track sweep s]

/-! ## Crossings and single-coil verdicts (R46 to R50, R53, R54) -/

theorem decideSide_oneLane {s : State} {x : Track} (oneLane : twoLanes s = false) : decideSide s x = x.side := by
  simp [decideSide, oneLane]

/-- Without peer strengths the side stays (R58). -/
theorem decideSide_alone {s : State} {x : Track} (positive : 0 < s.host.params.mSide) (noLeft : x.pL = none)
    (noRight : x.pR = none) : decideSide s x = x.side := by
  have margin : s.params.mSide ≠ 0 := Nat.pos_iff_ne_zero.mp positive
  simp [decideSide, noLeft, noRight, freshStrength, margin]

/-- The record of an OPEN track that crosses to OUT (R45, R48). -/
def crossed (x : Track) : Track := { x with lastD := some (balance x), phase := .OUT }

/-- An OPEN track whose balance has come to T_cross, with a start side other than STREET, goes OUT and is due its verdict. -/
theorem judgeTwoCoil_crosses {s : State} {x : Track} (noVerdict : x.verdict = none) (isOpen : x.phase = .OPEN)
    (side : decideSide s x = x.side) (set : x.startSide ≠ .notSet) (notStreet : x.startSide ≠ .STREET)
    (high : (s.host.params.tCross : Int) ≤ balance x) :
    judgeTwoCoil s x = { track := crossed x, tagEntry := false, due := some .OUT } := by
  simp [judgeTwoCoil, set, isOpen, phaseMove, high, crossed, notStreet, State.params, side, beforeOut, noVerdict]

/-- The record of an OPEN track that takes its verdict in single-coil mode (R45, R53, R54). -/
def takenSingle (x : Track) : Track :=
  { x with lastD := some (balance x), startSide := if x.startSide = .notSet then .NONE else x.startSide, phase := .OUT }

theorem judgeSingle_due {s : State} {x : Track} {v : Nat} (noVerdict : x.verdict = none) (isOpen : x.phase = .OPEN)
    (side : decideSide s x = x.side) (strength : x.sS = some v) (strong : s.host.params.tSingle ≤ v) :
    judgeSingle s .S x = { track := takenSingle x, tagEntry := false, due := some .UNKNOWN } := by
  simp [judgeSingle, singleDue, strengthOn, noVerdict, isOpen, side, strength, strong, State.params, beforeOut, takenSingle]

/-- A crossing at the window end, with both coils OK. -/
theorem evaluate_crosses {s : State} {x : Track} (table : s.track.table = [x]) (okH : s.field.coilH = .OK)
    (okS : s.field.coilS = .OK) (noVerdict : x.verdict = none) (isOpen : x.phase = .OPEN) (side : decideSide s x = x.side)
    (set : x.startSide ≠ .notSet) (notStreet : x.startSide ≠ .STREET) (high : (s.host.params.tCross : Int) ≤ balance x) :
    evaluate x.item s = giveVerdict x.item .OUT (withTrack (crossed x) s) := by
  have found : findTrack s x.item = some x := by simp [findTrack, table]
  have mode : coilMode s = .twoCoil := by simp [coilMode, coilFault, coilState, okH, okS]
  have judged := judgeTwoCoil_crosses noVerdict isOpen side set notStreet high
  simp only [evaluate, found, mode, judged]
  exact settleJudgement_due table rfl rfl rfl

/-- A strength of T_single on S at the window end, with H FAULT. -/
theorem evaluate_single {s : State} {x : Track} {v : Nat} {failed : Round} (table : s.track.table = [x])
    (faultH : s.field.coilH = .FAULT failed) (okS : s.field.coilS = .OK) (noVerdict : x.verdict = none) (isOpen : x.phase = .OPEN)
    (side : decideSide s x = x.side) (strength : x.sS = some v) (strong : s.host.params.tSingle ≤ v) :
    evaluate x.item s = giveVerdict x.item .UNKNOWN (withTrack (takenSingle x) s) := by
  have found : findTrack s x.item = some x := by simp [findTrack, table]
  have mode : coilMode s = .single .S := by simp [coilMode, coilFault, coilState, faultH, okS]
  have judged := judgeSingle_due noVerdict isOpen side strength strong
  simp only [evaluate, found, mode, judged]
  exact settleJudgement_due table rfl rfl rfl

/-- The request for an item not excused, whose loan word fails, is answered ALARM (R67, R68). -/
theorem outcomeOf_alarm {s : State} {item : ItemCode} {loan : LoanWord} (fails : ~~~loan &&& s.host.params.loanMask ≠ 0)
    (notExcused : ∀ e ∈ s.verdict.excuses, e.item ≠ item) : outcomeOf s item loan = .ALARM := by
  have listed : excused s item = false := by simpa [excused] using notExcused
  have failing : loanTestFails s.params.loanMask loan = true := decide_eq_true fails
  simp [outcomeOf, failing, listed]

/-- The window end passes the one track, which crosses at a station with the right lane alone (R48, R67, R71). -/
theorem windowEnd_passes {x : Track} {best : Strength} {c : Coil} {s : State} (first : s.supply.straps.station.val = 0)
    (notEnd : s.supply.straps.isEnd = false) (table : s.track.table = [x]) (marked : x.mark = .read best c)
    (side : x.side = .RIGHT) (judged : evaluate x.item s = giveVerdict x.item .OUT (withTrack (crossed x) s))
    (passes : ~~~x.loan &&& s.host.params.loanMask = 0) (room : s.notices.outbox.length < 8) :
    windowEnd s =
      { s with
        field := { s.field with window := none }
        track := { s.track with table := [{ writeVerdict .PASS .OUT (some 0) false (crossed x) with mark := .none }] }
        beams := { s.beams with counts := { s.beams.counts with tagPasses := s.beams.counts.tagPasses + 1 } }
        notices :=
          { s.notices with
            outbox :=
              s.notices.outbox ++
                [{ body := .SIGHTING [{ item := x.item, best := best, coil := c }], built := s.line.round }] } } := by
  have right : hasRight (withTrack (crossed x) s) = true := by simp [hasRight, withTrack, notEnd]
  have sameSide : (crossed x).side = .RIGHT := side
  have lane : reportLane s (crossed x).side = some 0 := by simp [sameSide, reportLane, laneNumber, State.station, first]
  have outcome : outcomeOf (withTrack (crossed x) s) (crossed x).item (crossed x).loan = .PASS := by
    simp [outcomeOf, loanTestFails, passes, withTrack, State.params, crossed]
  rw [windowEnd_verdict (y := crossed x) (held := false) table marked rfl rfl judged (by simp [settledSide, sameSide]) outcome
    (verdictEffects_pass right sameSide) room, lane]
  rfl

/-- A part `t` that a window end of `s` leaves with an ALARM given: no window, the record `z` with its mark cleared, and the
VERDICT and the SIGHTING notice queued (R69, R72, R109). -/
structure AlarmEnded (s : State) (z : Track) (body : NoticeBody) (sighting : Sighting) (t : State) : Prop where
  field : t.field = { s.field with window := none }
  access : t.access = s.access
  track : t.track = { s.track with table := [{ z with mark := .none }] }
  notices : t.notices =
    { s.notices with
      outbox :=
        s.notices.outbox ++ [{ body := body, built := s.line.round }, { body := .SIGHTING [sighting], built := s.line.round }] }

/-- The window end gives the one track an ALARM on the left lane alone (R63, R69 to R72, R142). -/
theorem windowEnd_soundsLeft {x y : Track} {best : Strength} {c : Coil} {d : Direction} {s : State}
    (table : s.track.table = [x]) (marked : x.mark = .read best c) (item : y.item = x.item) (mark : y.mark = x.mark)
    (side : y.side = .LEFT) (judged : evaluate x.item s = giveVerdict x.item d (withTrack y s))
    (outcome : outcomeOf (withTrack y s) y.item y.loan = .ALARM) (left : hasLane s .left = true)
    (notEnd : s.supply.straps.isEnd = true) (armed : s.lanes.left = .ARMED) (room : s.notices.outbox.length < 7) :
    AlarmEnded s (writeVerdict .ALARM d (some (laneNumber s .left)) false y)
        (.VERDICT [{ item := x.item, lane := BitVec.ofNat 4 (laneNumber s .left), verdict := 1 }])
        { item := x.item, best := best, coil := c } (windowEnd s) ∧
      (windowEnd s).lanes = { s.lanes with left := .SOUNDING s.host.params.soundLimit } ∧
      (windowEnd s).sounder.playing = true ∧ (windowEnd s).beams = s.beams ∧
      (windowEnd s).host = recorded s.line.round (.LANE (laneNumber s .left) true .OWN) s.host := by
  have hasLeft : hasLane (withTrack y s) .left = true := left
  have silent : anySounding (withTrack y s) = false := by
    simp [anySounding, sounds, laneState, hasLane, hasRight, withTrack, notEnd, armed, isSounding]
  have acts := verdictEffects_left (item := y.item) (side := y.side) hasLeft armed
    (by simpa [withTrack] using Nat.lt_succ_of_lt room) side
  rw [windowEnd_verdict table marked item mark judged (by simp [settledSide, side]) outcome acts
    (by simpa [withTrack] using Nat.succ_lt_succ room)]
  refine ⟨⟨?_, ?_, ?_, ?_⟩, ?_, ?_, ?_, ?_⟩
  · simp [withTrack]
  · simp [withTrack]
  · simp [side, reportLane]
  · simp [withTrack, item, laneNumber, State.station]
  · simp [enterSounding_lanes, withTrack, putLane]
  · exact enterSounding_playing _ hasLeft (by simp [silent])
  · simp [withTrack]
  · simp [enterSounding_host, withTrack, laneNumber, State.station]

/-- The window end gives the one track, its side UNSURE, an ALARM on both lanes (R60, R63, R69 to R72, R142). -/
theorem windowEnd_soundsBoth {x y : Track} {best : Strength} {c : Coil} {d : Direction} {s : State}
    (table : s.track.table = [x]) (marked : x.mark = .read best c) (item : y.item = x.item) (mark : y.mark = x.mark)
    (side : y.side = .UNSURE) (judged : evaluate x.item s = giveVerdict x.item d (withTrack y s))
    (settled : settledSide (withTrack y s) y = y.side)
    (outcome : outcomeOf (withTrack y s) y.item y.loan = .ALARM) (left : hasLane s .left = true) (right : hasLane s .right = true)
    (armedLeft : s.lanes.left = .ARMED) (armedRight : s.lanes.right = .ARMED) (room : s.notices.outbox.length < 7) :
    AlarmEnded s (writeVerdict .ALARM d none false y)
        (.VERDICT
          [{ item := x.item, lane := BitVec.ofNat 4 (laneNumber s .left), verdict := 1 },
            { item := x.item, lane := BitVec.ofNat 4 (laneNumber s .right), verdict := 1 }])
        { item := x.item, best := best, coil := c } (windowEnd s) ∧
      (windowEnd s).lanes =
          { s.lanes with left := .SOUNDING s.host.params.soundLimit, right := .SOUNDING s.host.params.soundLimit } ∧
      (windowEnd s).sounder.playing = true ∧
      (windowEnd s).beams = { s.beams with counts := { s.beams.counts with tagAlarms := s.beams.counts.tagAlarms + 1 } } ∧
      (windowEnd s).host =
        recorded s.line.round (.LANE (laneNumber s .right) true .OWN)
          (recorded s.line.round (.LANE (laneNumber s .left) true .OWN) s.host) := by
  have hasLeft : hasLane (withTrack y s) .left = true := left
  have silent : anySounding (withTrack y s) = false := by
    simp [anySounding, sounds, laneState, withTrack, armedLeft, armedRight, isSounding]
  have hasRight : hasLane (enterSounding .left .OWN (withTrack y s)) .right = true := by
    simpa [hasLane, Machine.hasRight, withTrack] using right
  have playing : (enterSounding .right .OWN (enterSounding .left .OWN (withTrack y s))).sounder.playing = true :=
    enterSounding_playing .OWN hasRight fun _ => enterSounding_playing .OWN hasLeft (by simp [silent])
  have acts := verdictEffects_both (item := y.item) (side := y.side) hasLeft right armedLeft armedRight
    (by simpa [withTrack] using Nat.lt_succ_of_lt room) side
  rw [windowEnd_verdict table marked item mark judged settled outcome acts (by simpa [withTrack] using Nat.succ_lt_succ room)]
  refine ⟨⟨?_, ?_, ?_, ?_⟩, ?_, ?_, ?_, ?_⟩
  · simp [withTrack]
  · simp [withTrack]
  · simp [side, reportLane]
  · simp [withTrack, item, laneNumber, State.station]
  · simp [enterSounding_lanes, withTrack, putLane]
  · exact playing
  · simp [withTrack]
  · simp [enterSounding_host, withTrack, laneNumber, State.station]

/-- The normal end of a half-sweep changes the field unit and the access unit alone, and no coil. -/
theorem swept_blocks (sweep : Sweep) (s : State) :
    ∃ field access, swept sweep s = { s with field := field, access := access } ∧
      field.coilH = s.field.coilH ∧ field.coilS = s.field.coilS := by
  cases sweep <;> exact ⟨_, _, rfl, rfl, rfl⟩

/-- An S half-sweep that called and read its one track ends with the window end (R2, R17, R26). -/
theorem limitSweep_answered {sense : DriveSense} {sweep : Sweep} {x : Track} {s : State} (running : heldInReset s = false)
    (flying : s.field.window = some { half := .S, sweep := sweep }) (table : s.track.table = [x])
    (answered : passedOver sweep x = false) :
    exec (.halfSweepTimeLimit sense) s = .next (windowEnd (swept sweep s)) := by
  rw [limitSweep_exec sense running flying]
  simp only [endHalf, completeSweep_answered table answered]

/-! ## The statement -/

/-- Settles O41: in each part the half-sweep's end leaves the track as it was, the judgement makes the verdict due, and the
effects of its outcome are those of the lanes that the settled side names. -/
theorem windowEndGivesVerdict : Obligations.WindowEndGivesVerdict := by
  unfold Obligations.WindowEndGivesVerdict
  refine ⟨?_, ?_, ?_⟩
  · intro sense x best c sweep s running first notEnd okH okS flying answered table marked noVerdict isOpen side set notStreet
      high passes room
    have kept : passedOver sweep x = false := by cases sweep <;> simpa [passedOver] using answered
    rw [limitSweep_answered running flying table kept]
    obtain ⟨field, access, blocks, coilH, coilS⟩ := swept_blocks sweep s
    have oneLane : twoLanes s = false := by simp [twoLanes, hasLeft, State.station, first]
    have judged := evaluate_crosses (s := { s with field := field, access := access }) table (coilH.trans okH) (coilS.trans okS)
      noVerdict isOpen (decideSide_oneLane oneLane) set notStreet high
    rw [blocks, windowEnd_passes (s := { s with field := field, access := access }) first notEnd table marked side judged passes
      room]
    rfl
  · intro sense x best c v failed sweep s running notFirst isEnd faultH okS flying answered table marked noVerdict isOpen side
      strength strong fails notExcused armed room lane
    have kept : passedOver sweep x = false := by cases sweep <;> simpa [passedOver] using answered
    rw [limitSweep_answered running flying table kept]
    obtain ⟨field, access, blocks, coilH, coilS⟩ := swept_blocks sweep s
    have oneLane : twoLanes s = false := by simp [twoLanes, hasRight, isEnd]
    have left : hasLane s .left = true := by simp [hasLane, hasLeft, State.station, notFirst]
    have judged := evaluate_single (s := { s with field := field, access := access }) table (coilH.trans faultH)
      (coilS.trans okS) noVerdict isOpen (decideSide_oneLane oneLane) strength strong
    obtain ⟨⟨fieldEnd, accessEnd, trackEnd, noticesEnd⟩, lanes, playing, beams, host⟩ :=
      windowEnd_soundsLeft (s := { s with field := field, access := access }) table marked (y := takenSingle x) rfl rfl
        side judged (outcomeOf_alarm fails notExcused) left isEnd armed room
    rw [blocks]
    refine ⟨_, rfl, fieldEnd, accessEnd, trackEnd.trans ?_, lanes, playing, beams, host, noticesEnd⟩
    simp only [writeVerdict, takenSingle, balance, strength]
    rfl
  · intro sense x best c sweep s running notFirst notLast notEnd okH okS positive flying answered table marked noVerdict isOpen
      side noLeft noRight noPeerAlarm leftUnseen rightUnseen set notStreet high fails notExcused armedLeft armedRight room own
    have kept : passedOver sweep x = false := by cases sweep <;> simpa [passedOver] using answered
    rw [limitSweep_answered running flying table kept]
    obtain ⟨field, access, blocks, coilH, coilS⟩ := swept_blocks sweep s
    have left : hasLane s .left = true := by simp [hasLane, hasLeft, State.station, notFirst]
    have right : hasLane s .right = true := by simp [hasLane, hasRight, notEnd]
    have judged := evaluate_crosses (s := { s with field := field, access := access }) table (coilH.trans okH) (coilS.trans okS)
      noVerdict isOpen (decideSide_alone positive noLeft noRight) set notStreet high
    have settled : ∀ w : State, w.track.leftBroken = none → w.track.rightBroken = none → settledSide w (crossed x) = .UNSURE :=
      fun w unseenLeft unseenRight => by
        simp [settledSide, crossed, side, noPeerAlarm, recent, unseenLeft, unseenRight]
    obtain ⟨⟨fieldEnd, accessEnd, trackEnd, noticesEnd⟩, lanes, playing, beams, host⟩ :=
      windowEnd_soundsBoth (s := { s with field := field, access := access }) table marked (y := crossed x) rfl rfl side judged
        ((settled _ leftUnseen rightUnseen).trans side.symm) (outcomeOf_alarm fails notExcused) left right
        armedLeft armedRight room
    rw [blocks]
    exact ⟨_, rfl, fieldEnd, accessEnd, trackEnd, lanes, playing, beams, host, noticesEnd⟩

end Sys2Proof.Machine
end

section
/-! PROOFS. The capacities of the track table and the sighting cache, with one record an item, through tracks, verdicts and field
windows (O5). -/

namespace Sys2Proof.Machine

/-! ## Tracks and cached sightings (R20, R29) -/

/-- The track table and the sighting cache within their capacities, one record an item. -/
def itemsWithin (u : TrackUnit) : Prop :=
  u.table.length ≤ Config.trackCapacity ∧ u.cache.length ≤ Config.cacheCapacity ∧ itemsApart u

/-- Records and cache entries that stay where they are, or leave, keep the capacities. -/
theorem itemsWithin_mono {u v : TrackUnit} (h : itemsWithin u) (table : (v.table.map Track.item).Sublist (u.table.map Track.item))
    (cache : (v.cache.map CacheEntry.item).Sublist (u.cache.map CacheEntry.item)) : itemsWithin v := by
  obtain ⟨tableFits, cacheFits, tableOnce, cacheOnce, apart⟩ := h
  refine ⟨?_, ?_, tableOnce.sublist table, cacheOnce.sublist cache, fun e he t ht same => ?_⟩
  · simpa using table.length_le.trans (by simpa using tableFits)
  · simpa using cache.length_le.trans (by simpa using cacheFits)
  · obtain ⟨e', he', hitem⟩ := List.mem_map.mp (cache.subset (List.mem_map_of_mem he))
    obtain ⟨t', ht', titem⟩ := List.mem_map.mp (table.subset (List.mem_map_of_mem ht))
    exact apart e' he' t' ht' (by rw [hitem, titem, same])

/-- Changes of records that keep their items keep the capacities. -/
theorem itemsWithin_map {u : TrackUnit} {f : Track → Track} (kept : ∀ t, (f t).item = t.item) (h : itemsWithin u) :
    itemsWithin { u with table := u.table.map f } := by
  have same : (u.table.map f).map Track.item = u.table.map Track.item := by
    rw [List.map_map]
    exact List.map_congr_left fun t _ => kept t
  exact itemsWithin_mono h (same ▸ .refl _) (.refl _)

theorem itemsWithin_records {u : TrackUnit} (item : ItemCode) {f : Track → Track}
    (kept : ∀ t, t.item = item → (f t).item = item) (h : itemsWithin u) : itemsWithin (recordsChanged item f u) := by
  refine itemsWithin_map (fun t => ?_) h
  split
  · rename_i same
    exact (kept t same).trans same.symm
  · rfl

theorem giveVerdict_items (item : ItemCode) (d : Direction) {s : State} (h : itemsWithin s.track) :
    itemsWithin (giveVerdict item d s).track := by
  obtain ⟨f, only, changed⟩ := giveVerdict_track item d s
  rw [changed]
  exact itemsWithin_records item (fun t same => by rw [only t]; exact same) h

theorem settleJudgement_items {before : Track} {j : Judgement} {s : State} (same : j.track.item = before.item)
    (h : itemsWithin s.track) : itemsWithin (evaluate.settleJudgement before j s).track := by
  obtain ⟨f, only, changed⟩ := settleJudgement_track before j s same
  rw [changed]
  exact itemsWithin_records _ (fun _ _ => by rw [only j.track]; exact same) h

theorem evaluate_items (item : ItemCode) {s : State} (h : itemsWithin s.track) : itemsWithin (evaluate item s).track := by
  unfold evaluate
  split
  · exact h
  · split
    · exact h
    · exact settleJudgement_items rfl h
    · exact settleJudgement_items rfl h

/-- The table without the records of an item. -/
theorem removeTrack_table (item : ItemCode) (s : State) :
    (removeTrack item s).track = { s.track with table := s.track.table.filter fun t => t.item ≠ item } := by
  simp [removeTrack]

theorem reportPassage_track (item : ItemCode) (s : State) : (reportPassage item s).track = s.track := by simp

/-- A track that expires leaves the table, and no other record does (R35). -/
theorem expireTrack_table (item : ItemCode) (s : State) :
    (expireTrack item s).track = { s.track with table := s.track.table.filter fun t => t.item ≠ item } := by
  unfold expireTrack
  split
  · rename_i missing
    have other : ∀ t ∈ s.track.table, t.item ≠ item := by simpa [findTrack] using missing
    rw [List.filter_eq_self.mpr (by simpa using other)]
  · rw [removeTrack_table, reportPassage_track]
    split
    · obtain ⟨f, only, changed⟩ := giveVerdict_track item .FADE_OUT s
      rw [changed]
      simp only [recordsChanged, TrackUnit.mk.injEq, and_true]
      generalize s.track.table = l
      induction l with
      | nil => rfl
      | cons t ts ih =>
        by_cases same : t.item = item
        · have still : (f t).item = item := by rw [only t]; exact same
          simpa [same, still] using ih
        · simpa [same] using ih
    · rfl

theorem expireTrack_items (item : ItemCode) {s : State} (h : itemsWithin s.track) : itemsWithin (expireTrack item s).track := by
  rw [expireTrack_table]
  exact itemsWithin_mono h (List.filter_sublist.map _) (.refl _)

theorem expireTracks_items {s : State} (h : itemsWithin s.track) : itemsWithin (expireTracks s).track :=
  foldl_holds_mem (fun u => itemsWithin u.track) _ _ (fun item _ _ hu => expireTrack_items item hu) h

theorem oldestTrack_some (now : Round) {l : List Track} (filled : l ≠ []) : ∃ x, oldestTrack now l = some x := by
  cases l with
  | nil => exact absurd rfl filled
  | cons t ts =>
    simp only [oldestTrack]
    split
    · exact ⟨t, rfl⟩
    · split <;> exact ⟨_, rfl⟩

/-- An eviction leaves room for one record more (R33). -/
theorem evict_room {s : State} (full : Config.trackCapacity ≤ s.track.table.length) (h : itemsWithin s.track) :
    itemsWithin (evict s).track ∧ (evict s).track.table.length < Config.trackCapacity ∧
      (evict s).track.table.Sublist s.track.table := by
  have filled : s.track.table ≠ [] := by
    intro empty
    simp [empty, Config.trackCapacity] at full
  obtain ⟨x, oldest⟩ := oldestTrack_some s.now filled
  have evicted : (evict s).track = { s.track with table := s.track.table.filter fun t => t.item ≠ x.item } := by
    simp [evict, oldest, expireTrack_table]
  have mem := oldestTrack_mem s.now oldest
  have shorter : (s.track.table.filter fun t => t.item ≠ x.item).length < s.track.table.length :=
    List.length_filter_lt_length_iff_exists.mpr ⟨x, mem, by simp⟩
  rw [evicted]
  exact ⟨itemsWithin_mono h (List.filter_sublist.map _) (.refl _), lt_of_lt_of_le shorter h.1, List.filter_sublist⟩

/-- A record is added for an item that has none, and its cache entry is taken over (R24, R25). -/
theorem createTrack_items {item : ItemCode} (loan : LoanWord) (c : Coil) (v : Strength) {s : State} (h : itemsWithin s.track)
    (room : s.track.table.length < Config.trackCapacity) (unknown : ∀ t ∈ s.track.table, t.item ≠ item) :
    itemsWithin (createTrack item loan c v s).track := by
  rw [createTrack_eq]
  obtain ⟨-, cacheFits, tableOnce, cacheOnce, apart⟩ := h
  have new : (created s item loan c v).item = item := rfl
  refine ⟨by simpa using room, (List.length_filter_le _ _).trans cacheFits, ?_,
    cacheOnce.sublist (List.filter_sublist.map _), ?_⟩
  · simp only [List.map_append, List.map_cons, List.map_nil, new]
    refine List.nodup_append.mpr ⟨tableOnce, List.nodup_singleton _, fun a ha b hb => ?_⟩
    obtain ⟨t, ht, rfl⟩ := List.mem_map.mp ha
    rw [List.mem_singleton.mp hb]
    exact unknown t ht
  · intro e he t ht
    obtain ⟨cached, other⟩ := List.mem_filter.mp he
    rcases List.mem_append.mp ht with ht | ht
    · exact apart e cached t ht
    · rw [List.mem_singleton.mp ht, new]
      simpa using other

/-- A kept read updates a record, or adds one in the room that there is or that an eviction makes (R22, R24, R33). -/
theorem takeRead_items (item : ItemCode) (loan : LoanWord) (c : Coil) (v : Strength) {s : State} (h : itemsWithin s.track) :
    itemsWithin (takeRead item loan c v s).track := by
  by_cases known : ∃ x ∈ s.track.table, x.item = item
  · rw [takeRead_known loan c v known]
    exact itemsWithin_records item (fun t same => by rw [readTrack_eq]; exact same) h
  · have unknown : ∀ x ∈ s.track.table, x.item ≠ item := fun x mem same => known ⟨x, mem, same⟩
    rw [takeRead_new loan c v unknown]
    split
    · exact createTrack_items loan c v h ‹_› unknown
    · obtain ⟨within, room, fewer⟩ := evict_room (Nat.not_lt.mp ‹_›) h
      exact createTrack_items loan c v within room fun x mem => unknown x (fewer.subset mem)

theorem passRead_items (c : Coil) (seen : List ItemCode) (reply : Option Reply) {s : State} (h : itemsWithin s.track) :
    itemsWithin (passRead c seen reply s).track := by
  unfold passRead
  split
  · exact h
  · split
    · exact takeRead_items _ _ _ _ h
    · exact h

/-! ## Field windows -/

theorem completeSweep_items (c : Coil) (sweep : Sweep) {s : State} (h : itemsWithin s.track) :
    itemsWithin (completeSweep c sweep s).track := by
  rw [completeSweep_swept]
  exact itemsWithin_map (fun t => (afterSweep_kept _ _ _ t).1) h

theorem windowEnd_items {s : State} (h : itemsWithin s.track) : itemsWithin (windowEnd s).track := by
  have judged := foldl_holds_mem (fun u => itemsWithin u.track) _ ((s.track.table.filter isMarked).map Track.item)
    (fun item _ _ hu => evaluate_items item hu) h
  simp only [windowEnd, onField_track, clearMarks, onTrack_track, buildSightings_frame]
  exact itemsWithin_map (fun _ => rfl) judged

theorem secondHalf_items (kind : WindowKind) (sense : DriveSense) {s : State} (h : itemsWithin s.track) :
    itemsWithin (secondHalf kind sense s).track := by
  have checked : itemsWithin (driveCheck .S sense s).1.track := by simpa using h
  have begun : itemsWithin (beginSweep kind .S (driveCheck .S sense s).1).track := checked
  unfold secondHalf
  simp only
  split
  · split
    · exact begun
    · split
      · exact windowEnd_items (completeSweep_items .S _ begun)
      · exact begun
  · exact windowEnd_items checked

theorem firstHalf_items (kind : WindowKind) (sense : DriveSense) {s : State} (h : itemsWithin s.track) :
    itemsWithin (firstHalf kind sense s).track := by
  have checked : itemsWithin (driveCheck .H sense s).1.track := by simpa using h
  have begun : itemsWithin (beginSweep kind .H (driveCheck .H sense s).1).track := checked
  unfold firstHalf
  simp only
  split
  · split
    · exact begun
    · split
      · exact secondHalf_items kind sense (completeSweep_items .H _ begun)
      · exact begun
  · exact secondHalf_items kind sense checked

theorem endHalf_items (w : Window) (sense : DriveSense) {s : State} (h : itemsWithin s.track) :
    itemsWithin (endHalf w sense s).track := by
  have completed := completeSweep_items w.half w.sweep h
  unfold endHalf
  simp only
  split
  · exact secondHalf_items _ sense completed
  · exact windowEnd_items completed

theorem progress_items (half : Coil) (sweep : Sweep) (done : Bool) (sense : DriveSense) {s : State} (h : itemsWithin s.track) :
    itemsWithin (progress half sweep done sense s).track := by
  unfold progress
  simp only
  split
  · exact endHalf_items _ sense (s := s.onField _) h
  · exact h

theorem cutWindow_items {s : State} (h : itemsWithin s.track) : itemsWithin (cutWindow s).track := by
  unfold cutWindow
  split
  · exact h
  · exact windowEnd_items (completeSweep_items _ _ h)

theorem startWindow_items (sense : DriveSense) {s : State} (h : itemsWithin s.track) : itemsWithin (startWindow sense s).track :=
  firstHalf_items _ sense (itemsWithin_map (f := fun t => { t with mark := .none }) (fun _ => rfl) h)

theorem closeWindow_items (reception : Reception) (sense : DriveSense) {s : State} (h : itemsWithin s.track) :
    itemsWithin (closeWindow reception sense s).track := by
  unfold closeWindow
  split
  · exact h
  · split
    · exact h
    · exact progress_items _ _ _ sense (passRead_items _ _ _ h)

theorem endCall_items (reception : Reception) (sense : DriveSense) {s : State} (h : itemsWithin s.track) :
    itemsWithin (endCall reception sense s).track := by
  unfold endCall
  split
  · exact h
  · split
    · exact h
    · split
      · exact h
      · exact progress_items _ _ _ sense (passRead_items _ _ _ h)

theorem limitSweep_items (sense : DriveSense) {s : State} (h : itemsWithin s.track) : itemsWithin (limitSweep sense s).track := by
  unfold limitSweep
  split
  · exact h
  · exact endHalf_items _ sense h

end Sys2Proof.Machine
end

section
/-! PROOFS. The capacities of the lists that received notices, excuses, queued notices and records move (O5). -/

namespace Sys2Proof.Machine

/-! ## Received sightings (R31) -/

theorem putPart_item (l : LaneSide) (p : PeerStrength) (e : CacheEntry) : (putPart l p e).item = e.item := by cases l <;> rfl

theorem putPeerStrength_item (l : LaneSide) (p : PeerStrength) (t : Track) : (putPeerStrength l p t).item = t.item := by
  cases l <;> rfl

/-- A sighting of an item with neither record nor cache entry enters the cache last, the oldest entry leaving a full one. -/
theorem itemsWithin_cached {u : TrackUnit} {e : CacheEntry} (h : itemsWithin u) (unknown : ∀ t ∈ u.table, t.item ≠ e.item)
    (uncached : ∀ c ∈ u.cache, c.item ≠ e.item) :
    itemsWithin { u with cache := (if u.cache.length < Config.cacheCapacity then u.cache else u.cache.tail) ++ [e] } := by
  obtain ⟨tableFits, cacheFits, tableOnce, cacheOnce, apart⟩ := h
  generalize kept : (if u.cache.length < Config.cacheCapacity then u.cache else u.cache.tail) = l
  have fewer : l.Sublist u.cache := by
    rw [← kept]
    split
    · exact .refl _
    · exact List.tail_sublist _
  have room : l.length < Config.cacheCapacity := by
    rw [← kept]
    split
    · assumption
    · simp only [List.length_tail]
      have : Config.cacheCapacity = 32 := rfl
      omega
  refine ⟨tableFits, by simpa using room, tableOnce, ?_, fun c hc t ht => ?_⟩
  · rw [List.map_append, List.nodup_append]
    refine ⟨cacheOnce.sublist (fewer.map _), List.nodup_singleton _, fun a ha b hb => ?_⟩
    obtain ⟨c, hc, rfl⟩ := List.mem_map.mp ha
    rw [List.mem_singleton.mp hb]
    exact uncached c (fewer.subset hc)
  · rcases List.mem_append.mp hc with hc | hc
    · exact apart c (fewer.subset hc) t ht
    · rw [List.mem_singleton.mp hc]
      exact (unknown t ht).symm

theorem takeSighting_items (l : LaneSide) (e : Sighting) {s : State} (h : itemsWithin s.track) :
    itemsWithin (takeSighting l e s).track := by
  unfold takeSighting
  simp only
  split
  · exact itemsWithin_records _ (fun t same => (putPeerStrength_item l _ t).trans same) h
  · rename_i missing
    have unknown : ∀ t ∈ s.track.table, t.item ≠ e.item := by simpa [findTrack] using missing
    rw [onTrack_track]
    split
    · refine itemsWithin_mono h (.refl _) ?_
      have same : (s.track.cache.map fun c => if c.item = e.item then
          putPart l { strength := e.best, coil := e.coil, received := s.now } c else c).map CacheEntry.item =
            s.track.cache.map CacheEntry.item := by
        rw [List.map_map]
        refine List.map_congr_left fun c _ => ?_
        by_cases named : c.item = e.item <;> simp [named, putPart_item]
      exact same ▸ .refl _
    · rename_i absent
      have uncached : ∀ c ∈ s.track.cache, c.item ≠ e.item := by simpa using absent
      exact itemsWithin_cached h (by simpa [putPart_item] using unknown) (by simpa [putPart_item] using uncached)

theorem takeVerdictEntry_items (e : VerdictEntry) {s : State} (h : itemsWithin s.track) :
    itemsWithin (takeVerdictEntry e s).track := by
  unfold takeVerdictEntry
  split
  · exact itemsWithin_records _ (fun _ same => same) h
  · exact h

/-! ## Excuses (R76 to R80) -/

/-- The excuse list within its capacity, one entry an item, each with 1 to 255 minutes. -/
def excusesWithin (l : List ExcuseEntry) : Prop :=
  l.length ≤ Config.excuseCapacity ∧ (l.map ExcuseEntry.item).Nodup ∧ ∀ e ∈ l, 1 ≤ e.life ∧ e.life ≤ 255

theorem excusesWithin_sublist {l m : List ExcuseEntry} (h : excusesWithin l) (fewer : m.Sublist l) : excusesWithin m := by
  obtain ⟨fits, once, lives⟩ := h
  exact ⟨fewer.length_le.trans fits, once.sublist (fewer.map _), fun e he => lives e (fewer.subset he)⟩

theorem insertByLife_perm (e : ExcuseEntry) (l : List ExcuseEntry) : (insertByLife e l).Perm (e :: l) := by
  induction l with
  | nil => exact .refl _
  | cons x xs ih =>
    simp only [insertByLife]
    split
    · exact (ih.cons x).trans (.swap e x xs)
    · exact .refl _

theorem excuseOrder_perm (stored : List ExcuseEntry) : (excuseOrder stored).Perm stored := by
  have key : ∀ l acc : List ExcuseEntry, (l.foldl (fun l e => insertByLife e l) acc).Perm (acc ++ l) := by
    intro l
    induction l with
    | nil => simp
    | cons e es ih =>
      intro acc
      exact (ih _).trans (((insertByLife_perm e acc).append_right es).trans List.perm_middle.symm)
  simpa only [excuseOrder, List.nil_append] using key stored []

theorem dropSoonest_sublist (l : List ExcuseEntry) : (dropSoonest l).Sublist l := by
  unfold dropSoonest
  split
  · exact List.nil_sublist l
  · exact List.eraseP_sublist

theorem dropSoonest_length {l : List ExcuseEntry} (filled : l ≠ []) : (dropSoonest l).length + 1 = l.length := by
  unfold dropSoonest
  split
  · rename_i empty
    exact absurd (empty ▸ excuseOrder_perm l).symm.eq_nil filled
  · rename_i first rest order
    have mem : first ∈ l := (excuseOrder_perm l).mem_iff.mp (order ▸ List.mem_cons_self)
    rw [List.length_eraseP_of_mem mem (by simp)]
    have := List.length_pos_of_mem mem
    omega

theorem applyExcuse_excuses (item : ItemCode) {life : Nat} (inByte : life ≤ 255) {s : State}
    (h : excusesWithin s.verdict.excuses) : excusesWithin (applyExcuse item life s).verdict.excuses := by
  unfold applyExcuse
  split
  · exact excusesWithin_sublist h List.filter_sublist
  · rename_i some_life
    have entered : ∀ l, excusesWithin l → l.length < Config.excuseCapacity → (∀ e ∈ l, e.item ≠ item) →
        excusesWithin (l ++ [{ item := item, life := life }]) := by
      rintro l ⟨-, once, lives⟩ room other
      refine ⟨by simpa using room, ?_, fun e he => ?_⟩
      · rw [List.map_append, List.nodup_append]
        refine ⟨once, List.nodup_singleton _, fun a ha b hb => ?_⟩
        obtain ⟨e, he, rfl⟩ := List.mem_map.mp ha
        rw [List.mem_singleton.mp hb]
        exact other e he
      · rcases List.mem_append.mp he with he | he
        · exact lives e he
        · rw [List.mem_singleton.mp he]
          exact ⟨Nat.one_le_iff_ne_zero.mpr some_life, inByte⟩
    simp only [addExcuse, onVerdict_verdict]
    split
    · obtain ⟨fits, once, lives⟩ := h
      refine ⟨by simpa using fits, ?_, fun e he => ?_⟩
      · have same : (s.verdict.excuses.map fun e => if e.item = item then { e with life := life } else e).map
            ExcuseEntry.item = s.verdict.excuses.map ExcuseEntry.item := by
          rw [List.map_map]
          refine List.map_congr_left fun e _ => ?_
          by_cases named : e.item = item <;> simp [named]
        rw [same]
        exact once
      · obtain ⟨old, mem, rfl⟩ := List.mem_map.mp he
        split
        · exact ⟨Nat.one_le_iff_ne_zero.mpr some_life, inByte⟩
        · exact lives old mem
    · rename_i absent
      have other : ∀ e ∈ s.verdict.excuses, e.item ≠ item := by simpa using absent
      split
      · exact entered _ h ‹_› other
      · rename_i full
        have fewer := dropSoonest_sublist s.verdict.excuses
        have filled : s.verdict.excuses ≠ [] := by
          intro empty
          simp [empty, Config.excuseCapacity] at full
        have shorter := dropSoonest_length filled
        have fits := h.1
        exact entered _ (excusesWithin_sublist h fewer) (by omega) fun e he => other e (fewer.subset he)

/-- At a minute boundary every excuse loses a minute, and those at 0 leave (R80). -/
theorem minuteTurn_excuses {s : State} (h : excusesWithin s.verdict.excuses) :
    excusesWithin (minuteTurn s).verdict.excuses := by
  obtain ⟨fits, once, lives⟩ := h
  have same : (s.verdict.excuses.map fun e => { e with life := e.life - 1 }).map ExcuseEntry.item =
      s.verdict.excuses.map ExcuseEntry.item := by
    simp [List.map_map, Function.comp_def]
  refine ⟨(List.length_filter_le _ _).trans (by simpa using fits),
    List.Nodup.sublist (List.filter_sublist.map _) (same ▸ once), fun e he => ?_⟩
  obtain ⟨mem, alive⟩ := List.mem_filter.mp he
  obtain ⟨old, oldMem, rfl⟩ := List.mem_map.mp mem
  have oldLife := lives old oldMem
  simp only [ne_eq, decide_not, Bool.not_eq_eq_eq_not, Bool.not_true, decide_eq_false_iff_not] at alive
  simp only
  omega

/-! ## Outbox and ring (R106, R107, R181) -/

/-- The in-flight head and the other notices make up the outbox (R106). -/
theorem boundNotices_looseNotices (q : NoticeQueue) : boundNotices q ++ looseNotices q = q.outbox := by
  unfold boundNotices looseNotices
  split
  · rfl
  · rw [← List.drop_one, List.take_append_drop]

theorem boundNotices_looseNotices_length (q : NoticeQueue) :
    (boundNotices q).length + (looseNotices q).length = q.outbox.length := by
  rw [← List.length_append, boundNotices_looseNotices]

theorem queueNotice_fits (b : NoticeBody) {s : State} (h : s.notices.outbox.length ≤ Config.outboxCapacity) :
    (queueNotice b s).notices.outbox.length ≤ Config.outboxCapacity := by
  have parted := boundNotices_looseNotices_length s.notices
  unfold queueNotice
  simp only
  split
  · simpa using Nat.succ_le_of_lt ‹_›
  · split
    · rename_i some_sighting
      obtain ⟨n, mem, sighting⟩ := List.any_eq_true.mp some_sighting
      have erased := List.length_eraseP_of_mem mem sighting
      have filled := List.length_pos_of_mem mem
      simp only [onNotices_notices, List.length_append, List.length_singleton, erased]
      omega
    · simpa using h

theorem queueNotice_ring (b : NoticeBody) (s : State) : (queueNotice b s).host.ring = s.host.ring := by
  unfold queueNotice
  simp only
  (repeat' split) <;> rfl

theorem makeRecord_fits (b : ReportBody) {s : State} (h : s.host.ring.length ≤ Config.ringCapacity) :
    (makeRecord b s).host.ring.length ≤ Config.ringCapacity := by
  rw [makeRecord_eq]
  simp only [recorded]
  split
  · simpa using Nat.succ_le_of_lt ‹_›
  · exact h

/-- The excuse list and the ring within their capacities: what the host's commands and the notices of other stations change. -/
def listsWithin (s : State) : Prop := excusesWithin s.verdict.excuses ∧ s.host.ring.length ≤ Config.ringCapacity

theorem withinCapacity_iff (s : State) :
    withinCapacity s ↔
      itemsWithin s.track ∧ listsWithin s ∧ s.notices.outbox.length ≤ Config.outboxCapacity :=
  ⟨fun ⟨items, excuses, outbox, ring⟩ => ⟨items, ⟨excuses, ring⟩, outbox⟩,
    fun ⟨items, ⟨excuses, ring⟩, outbox⟩ => ⟨items, excuses, outbox, ring⟩⟩

/-- Tracks, verdicts and field windows keep excuse list, ring and outbox within their capacities. -/
theorem listsWithin_kept :
    KeptByWindows fun s => listsWithin s ∧ s.notices.outbox.length ≤ Config.outboxCapacity where
  keepsTrack _ _ h := h
  keepsRecord b s h := by
    obtain ⟨⟨excuses, ring⟩, outbox⟩ := h
    exact ⟨⟨by simpa using excuses, makeRecord_fits b ring⟩, by simpa using outbox⟩
  keepsNotice b s h := by
    obtain ⟨⟨excuses, ring⟩, outbox⟩ := h
    exact ⟨⟨by simpa using excuses, queueNotice_ring b s ▸ ring⟩, queueNotice_fits b outbox⟩
  keepsErrors _ _ h := h
  keepsCounts _ _ h := by simpa [listsWithin] using h
  keepsLane _ _ _ _ h := by simpa [listsWithin] using h
  keepsField _ _ h := h
  keepsPattern _ _ h := h
  keepsQuiet _ h := h
  keepsStir _ h := h

/-- What tracks, verdicts and windows make of a part is within the capacities when its tracks are. -/
theorem withinCapacity_windows {s t : State} (h : withinCapacity s) (items : itemsWithin t.track)
    (kept : ∀ P, KeptByWindows P → P s → P t) : withinCapacity t := by
  obtain ⟨-, lists⟩ := (withinCapacity_iff s).mp h
  exact (withinCapacity_iff t).mpr ⟨items, kept _ listsWithin_kept lists⟩

/-- Blocks without a list, and lists that lose entries, keep the capacities. -/
theorem withinCapacity_mono {s t : State} (h : withinCapacity s)
    (table : (t.track.table.map Track.item).Sublist (s.track.table.map Track.item))
    (cache : (t.track.cache.map CacheEntry.item).Sublist (s.track.cache.map CacheEntry.item))
    (excuses : t.verdict.excuses.Sublist s.verdict.excuses) (outbox : t.notices.outbox.length ≤ s.notices.outbox.length)
    (ring : t.host.ring.length ≤ s.host.ring.length) : withinCapacity t := by
  obtain ⟨items, ⟨listed, reports⟩, queue⟩ := (withinCapacity_iff s).mp h
  exact (withinCapacity_iff t).mpr ⟨itemsWithin_mono items table cache,
    ⟨excusesWithin_sublist listed excuses, ring.trans reports⟩, outbox.trans queue⟩

/-- What leaves the lists as they are keeps the capacities. -/
theorem withinCapacity_frame {s t : State} (h : withinCapacity s) (table : t.track.table = s.track.table)
    (cache : t.track.cache = s.track.cache) (excuses : t.verdict.excuses = s.verdict.excuses)
    (outbox : t.notices.outbox = s.notices.outbox) (ring : t.host.ring = s.host.ring) : withinCapacity t :=
  withinCapacity_mono h (by rw [table]) (by rw [cache]) (by rw [excuses]) (by rw [outbox]) (by rw [ring])

end Sys2Proof.Machine
end

section
/-! PROOFS. The capacities, kept by every command (O5). -/

namespace Sys2Proof.Machine

/-! ## Lanes, DORMANT entry, wake and resets -/

theorem hushLane_capacity (l : LaneSide) (cause : LaneCause) {s : State} (h : withinCapacity s) :
    withinCapacity (hushLane l cause s) :=
  withinCapacity_windows h (by simpa using ((withinCapacity_iff s).mp h).1) fun _ k => k.hushLane_keeps l cause

theorem makeRecord_capacity (b : ReportBody) {s : State} (h : withinCapacity s) : withinCapacity (makeRecord b s) :=
  withinCapacity_windows h (by simpa using ((withinCapacity_iff s).mp h).1) fun _ k => k.keepsRecord b s

theorem queueNotice_capacity (b : NoticeBody) {s : State} (h : withinCapacity s) : withinCapacity (queueNotice b s) :=
  withinCapacity_windows h (by simpa using ((withinCapacity_iff s).mp h).1) fun _ k => k.keepsNotice b s

theorem dormantEntry_capacity {s : State} (h : withinCapacity s) : withinCapacity (dormantEntry s) := by
  rw [dormantEntry_eq]
  exact withinCapacity_mono h (List.nil_sublist _) (List.nil_sublist _) (.refl _) (Nat.zero_le _) (Nat.le_refl _)

theorem wake_capacity (cadence : Cadence) {s : State} (h : withinCapacity s) : withinCapacity (wake cadence s) := by
  by_cases c : s.line.state = .CLASHED
  · simp only [wake, onLine_line, onAccess_line, dormantTimerZero_frame, onSupply_line, c, if_true, clearPeers_eq]
    exact h
  · rw [wake_eq cadence s c]
    exact h

theorem engineReset_capacity {s : State} (h : withinCapacity s) : withinCapacity (engineReset s) := by
  refine withinCapacity_mono h ?_ ?_ ?_ ?_ ?_ <;> simp [engineReset, dormantTimerZero, freshClasses, clearPeers_eq, armLanes]

theorem powerOnState_capacity (cause : ResetCause) (straps : Straps) (s : State) :
    withinCapacity (powerOnState cause straps s) := by
  simp [withinCapacity, itemsApart, powerOnState, State.reset]

/-! ## The host's commands -/

theorem startDelivery_capacity {s : State} (h : withinCapacity s) : withinCapacity (startDelivery s) := by
  unfold startDelivery
  split <;> exact h

/-- A frame moves the lists by what its command does alone (R174 to R176). -/
theorem takeFrame_capacity (f : Frame) (take : State → State × Response)
    (takes : ∀ s, withinCapacity s → withinCapacity (take s).1) {s : State} (h : withinCapacity s) :
    withinCapacity (takeFrame f take s) := by
  unfold takeFrame
  split
  · exact h
  · simp only
    split
    · exact h
    · refine takes _ ?_
      split
      · exact wake_capacity .BRISK (s := frameReceived f s) h
      · exact h

theorem commandFrame_capacity (code : Byte) (length : Nat) (payload : List Byte) (act : State → Taken)
    (acts : ∀ s, withinCapacity s → withinCapacity (act s).state) {s : State} (h : withinCapacity s) :
    withinCapacity (commandFrame code length payload act s) := by
  refine takeFrame_capacity _ _ (fun u hu => ?_) h
  unfold takeCommand
  split
  · exact hu
  · exact acts u hu

/-- REPORTS takes records out of the ring (R183). -/
theorem actReports_capacity (n : Nat) {s : State} (h : withinCapacity s) : withinCapacity (actReports n s).state := by
  refine withinCapacity_mono h (.refl _) (.refl _) (.refl _) (Nat.le_refl _) ?_
  simp only [actReports, onHost_host, inTransmission, waitingReports]
  split <;> simp only [List.length_append, List.length_take, List.length_drop, List.length_tail, List.length_nil] <;> omega

theorem actSet_capacity (id : Byte) (value : Nat) {s : State} (h : withinCapacity s) :
    withinCapacity (actSet id value s).state := by
  unfold actSet
  split
  · exact h
  · simp only
    split <;> exact h

theorem applyExcuse_capacity (item : ItemCode) {life : Nat} (inByte : life ≤ 255) {s : State} (h : withinCapacity s) :
    withinCapacity (applyExcuse item life s) := by
  obtain ⟨items, ⟨excuses, ring⟩, outbox⟩ := (withinCapacity_iff s).mp h
  exact (withinCapacity_iff _).mpr
    ⟨by simpa using items, ⟨applyExcuse_excuses item inByte excuses, by simpa using ring⟩, by simpa using outbox⟩

theorem removeExcuse_capacity (item : ItemCode) {s : State} (h : withinCapacity s) : withinCapacity (removeExcuse item s) :=
  withinCapacity_mono h (.refl _) (.refl _) List.filter_sublist (Nat.le_refl _) (Nat.le_refl _)

theorem actHush_capacity (arg : Byte) {s : State} (h : withinCapacity s) : withinCapacity (actHush arg s).state := by
  have left := hushLane_capacity .left .HOST h
  unfold actHush
  simp only [hushNamed, refuse]
  split
  · split
    · exact left
    · exact h
  · split
    · split
      · exact hushLane_capacity .right .HOST h
      · exact h
    · split
      · split
        · exact hushLane_capacity .right .HOST left
        · exact h
      · exact h

/-- Every complete frame: one case a command code (R176, R200). -/
theorem completeFrame_capacity (f : Frame) {s : State} (h : withinCapacity s) : withinCapacity (completeFrame f s) := by
  have same : ∀ (code : Byte) (length : Nat) (payload : List Byte) (act : State → Taken), (∀ s, (act s).state = s) →
      withinCapacity (commandFrame code length payload act s) := fun code length payload act unchanged =>
    commandFrame_capacity code length payload act (fun u hu => (unchanged u).symm ▸ hu) h
  unfold completeFrame
  simp only
  split
  case h_1 => exact same _ _ _ _ fun _ => rfl
  case h_2 => exact same _ _ _ _ fun _ => rfl
  case h_3 => exact same _ _ _ _ fun _ => rfl
  case h_4 => exact same _ _ _ _ fun u => by unfold actCounts; split <;> rfl
  case h_5 =>
    refine commandFrame_capacity _ _ _ _ (fun u hu => ?_) h
    unfold actTakeCounts
    split <;> exact hu
  case h_6 => exact commandFrame_capacity _ _ _ _ (fun u hu => actReports_capacity _ hu) h
  case h_7 =>
    refine commandFrame_capacity _ _ _ _ (fun u hu => ?_) h
    unfold actStream
    (repeat' split) <;> exact hu
  case h_8 => exact commandFrame_capacity _ _ _ _ (fun u hu => actSet_capacity _ _ hu) h
  case h_9 => exact same _ _ _ _ fun _ => rfl
  case h_10 =>
    exact commandFrame_capacity _ _ _ _ (fun u hu => queueNotice_capacity _
      (applyExcuse_capacity _ (Nat.le_of_lt_succ (BitVec.isLt _)) hu)) h
  case h_11 => exact commandFrame_capacity _ _ _ _ (fun u hu => queueNotice_capacity _ (removeExcuse_capacity _ hu)) h
  case h_12 => exact same _ _ _ _ fun _ => rfl
  case h_13 => exact commandFrame_capacity _ _ _ _ (fun u hu => actHush_capacity _ hu) h
  case h_14 => exact commandFrame_capacity _ _ _ _ (fun u hu => hu) h
  case h_15 =>
    refine commandFrame_capacity _ _ _ _ (fun u hu => ?_) h
    unfold actRest
    split
    · exact hu
    · exact dormantEntry_capacity hu
  case h_16 =>
    exact same _ _ _ _ fun u => by
      unfold actReset
      (repeat' split) <;> rfl
  case h_17 => exact takeFrame_capacity _ _ (fun _ hu => hu) h

theorem receiveByte_capacity (b : LinkByte) {s : State} (h : withinCapacity s) : withinCapacity (receiveByte b s) := by
  unfold receiveByte
  simp only
  split
  case h_5 =>
    split
    · exact h
    · exact completeFrame_capacity _ h
  all_goals split <;> exact h

theorem receiveBytes_capacity (bytes : List LinkByte) {s : State} (h : withinCapacity s) : withinCapacity (receiveBytes bytes s) :=
  foldl_holds_mem withinCapacity _ _ (fun b _ _ hu => receiveByte_capacity b hu) h

theorem byteGap_capacity {s : State} (h : withinCapacity s) : withinCapacity (byteGap s) := by
  unfold byteGap
  split <;> exact h

/-- The end of a REPORT frame takes its record out of the ring (R184). -/
theorem reportEnd_capacity {s : State} (h : withinCapacity s) : withinCapacity (reportEnd s) := by
  unfold reportEnd
  split
  · have left : withinCapacity (s.onHost fun h => { h with ring := h.ring.tail, transmitter := .IDLE }) :=
      withinCapacity_mono h (.refl _) (.refl _) (.refl _) (Nat.le_refl _) (by simp)
    simp only
    split
    · exact left
    · exact startDelivery_capacity left
  · exact h

theorem responseEnd_capacity (pins : StrapPins) {s : State} (h : withinCapacity s) : withinCapacity (responseEnd pins s) := by
  unfold responseEnd
  split
  · refine startDelivery_capacity ?_
    unfold actOnReset
    split
    · exact h
    · exact powerOnState_capacity _ _ _
    · exact engineReset_capacity (s := s.onHost _) h
    · exact h
  all_goals exact h

/-! ## Notices of other stations (R31, R74, R77) -/

theorem dispatchNotice_capacity (station : Fin 16) (body : NoticeBody) {s : State} (h : withinCapacity s) :
    withinCapacity (dispatchNotice station body s) := by
  obtain ⟨items, lists, outbox⟩ := (withinCapacity_iff s).mp h
  cases body with
  | SIGHTING es =>
    have taken : ∀ l, itemsWithin (es.foldl (fun s e => takeSighting l e s) s).track := fun l =>
      foldl_holds_mem (fun u => itemsWithin u.track) _ es (fun e _ _ hu => takeSighting_items l e hu) items
    refine (withinCapacity_iff _).mpr ⟨?_, by simpa [listsWithin, dispatchNotice] using lists, by simpa using outbox⟩
    simp only [dispatchNotice, takeSightings]
    (repeat' split)
    · exact taken .left
    · exact taken .right
    · exact items
  | VERDICT es =>
    have told : withinCapacity (es.foldl (fun s e => takeVerdictEntry e s) s) :=
      foldl_holds_mem withinCapacity _ es (fun e _ u hu => by
        obtain ⟨uItems, uRest⟩ := (withinCapacity_iff u).mp hu
        exact (withinCapacity_iff _).mpr ⟨takeVerdictEntry_items e uItems, by simpa [listsWithin] using uRest⟩) h
    simp only [dispatchNotice, takeVerdicts]
    split
    · exact foldl_holds_mem withinCapacity _ es (fun e _ _ hu => makeRecord_capacity _ hu) told
    · exact told
  | EXCUSE es =>
    exact foldl_holds_mem withinCapacity _ es
      (fun e _ _ hu => applyExcuse_capacity _ (Nat.le_of_lt_succ (BitVec.isLt _)) hu) h

theorem receiveSlot_capacity (data : List Bool) {s : State} (h : withinCapacity s) : withinCapacity (receiveSlot data s) := by
  unfold receiveSlot checkNotice
  split
  · exact h
  · split
    · exact h
    · split
      · exact h
      · exact dispatchNotice_capacity _ _ h

theorem readBackNotice_capacity (data : List Bool) {s : State} (h : withinCapacity s) :
    withinCapacity (readBackNotice data s) := by
  unfold readBackNotice
  (repeat' split) <;> exact h

theorem classAfterSlot_capacity (data : List Bool) {s : State} (h : withinCapacity s) :
    withinCapacity (classAfterSlot data s) := by
  unfold classAfterSlot
  split <;> exact h

theorem slotEndSynced_capacity (data : List Bool) {s : State} (h : withinCapacity s) : withinCapacity (slotEndSynced data s) := by
  have read := readBackNotice_capacity data h
  unfold slotEndSynced
  simp only
  split
  · exact receiveSlot_capacity data (classAfterSlot_capacity data read)
  · exact receiveSlot_capacity data (classAfterSlot_capacity data (s := unmark _) read)
  · exact read
  · exact withinCapacity_mono read (.refl _) (.refl _) (.refl _) (by simp [unmark, putFlight]) (Nat.le_refl _)

theorem endNotice_capacity (slot : Fin 24) (levels : List Bool) {s : State} (h : withinCapacity s) :
    withinCapacity (endNotice slot levels s) := by
  unfold endNotice
  simp only
  split
  · split
    · split
      · exact readBackNotice_capacity _ (s := putTimer _ s) h
      · exact h
    · split
      · exact slotEndSynced_capacity _ (s := putTimer _ s) h
      · exact receiveSlot_capacity _ (s := putTimer _ s) h
  · exact h

/-! ## The round start -/

theorem dropStale_capacity {s : State} (h : withinCapacity s) : withinCapacity (dropStale s) := by
  refine withinCapacity_mono h (.refl _) (.refl _) (.refl _) ?_ (Nat.le_refl _)
  simp only [dropStale, onNotices_notices, List.length_append]
  refine (Nat.add_le_add_left (List.length_filter_le _ _) _).trans (Nat.le_of_eq ?_)
  exact boundNotices_looseNotices_length s.notices

theorem ageCache_capacity {s : State} (h : withinCapacity s) : withinCapacity (ageCache s) :=
  withinCapacity_mono h (.refl _) (List.filter_sublist.map _) (.refl _) (Nat.le_refl _) (Nat.le_refl _)

theorem minuteTurn_capacity {s : State} (h : withinCapacity s) : withinCapacity (minuteTurn s) := by
  obtain ⟨items, ⟨excuses, ring⟩, outbox⟩ := (withinCapacity_iff s).mp h
  exact (withinCapacity_iff _).mpr ⟨items, ⟨minuteTurn_excuses excuses, ring⟩, outbox⟩

theorem minuteAdvance_capacity {s : State} (h : withinCapacity s) : withinCapacity (minuteAdvance s) := by
  unfold minuteAdvance
  split
  · exact minuteTurn_capacity h
  · exact h

theorem pendingTest_capacity {s : State} (h : withinCapacity s) : withinCapacity (pendingTest s) := by
  unfold pendingTest
  split
  · exact dormantEntry_capacity h
  · exact h

theorem quietMinuteTurn_capacity {s : State} (h : withinCapacity s) : withinCapacity (quietMinuteTurn s) := by
  unfold quietMinuteTurn
  simp only
  split
  · split
    · exact dormantEntry_capacity (s := s.onSupply _) h
    · exact h
  · exact h

theorem dormantAdvance_capacity {s : State} (h : withinCapacity s) : withinCapacity (dormantAdvance s) := by
  unfold dormantAdvance
  split
  · split
    · refine pendingTest_capacity ?_
      split
      · exact quietMinuteTurn_capacity h
      · exact h
    · exact h
  · exact h

theorem soundTick_capacity (l : LaneSide) {s : State} (h : withinCapacity s) : withinCapacity (soundTick l s) := by
  unfold soundTick
  split
  · split
    · split
      · exact hushLane_capacity l .LIMIT h
      · cases l <;> exact h
    · exact h
    · exact h
  · exact h

theorem beamsAtRound_capacity {s : State} (h : withinCapacity s) : withinCapacity (beamsAtRound s) := by
  unfold beamsAtRound
  split <;> exact h

theorem windowAtRound_capacity (how : RoundHow) (sense : DriveSense) {s : State} (h : withinCapacity s) :
    withinCapacity (windowAtRound how sense s) := by
  unfold windowAtRound
  split
  · have items := ((withinCapacity_iff s).mp h).1
    exact withinCapacity_windows (s := s.onAccess _) h (startWindow_items sense items) fun _ k => k.startWindow_keeps sense
  · exact h

theorem expireTracks_capacity {s : State} (h : withinCapacity s) : withinCapacity (expireTracks s) :=
  withinCapacity_windows h (expireTracks_items ((withinCapacity_iff s).mp h).1) fun _ k => k.expireTracks_keeps

/-- Each part of a round start keeps the capacities. -/
theorem roundTask_capacity (how : RoundHow) (sense : DriveSense) (u : RoundTask) {s : State} (h : withinCapacity s) :
    withinCapacity (roundTask how sense u s) := by
  cases u with
  | windowEnd =>
    exact withinCapacity_windows h (cutWindow_items ((withinCapacity_iff s).mp h).1) fun _ k => k.cutWindow_keeps
  | trackExpiry => exact expireTracks_capacity h
  | cacheAgeing => exact ageCache_capacity h
  | minuteCount => exact minuteAdvance_capacity h
  | quietCount => refine withinCapacity_frame h ?_ ?_ ?_ ?_ ?_ <;> simp [roundTask]
  | fieldClass => refine withinCapacity_frame h ?_ ?_ ?_ ?_ ?_ <;> simp [roundTask]
  | staleNotices => exact dropStale_capacity h
  | soundTimers => exact soundTick_capacity .right (soundTick_capacity .left h)
  | beamsBroken => exact beamsAtRound_capacity h
  | dormantTimer => exact dormantAdvance_capacity h
  | requestDecision => exact h
  | slotWord => exact h
  | windowStart => exact windowAtRound_capacity how sense h

theorem roundStart_capacity (how : RoundHow) (timer : Nat) (input : RoundInput) {s : State} (h : withinCapacity s) :
    withinCapacity (roundStart how timer input s) :=
  roundStart_keeps withinCapacity how timer input (fun _ h => h) (fun u _ h => roundTask_capacity how _ u h) (fun _ _ _ h => h) h

/-! ## The commands of the line -/

theorem endMark_capacity (began length : Nat) (input : RoundInput) {s : State} (h : withinCapacity s) :
    withinCapacity (endMark began length input s) := by
  have cut : ∀ u, withinCapacity u → withinCapacity (framingError began u) := fun u hu => by
    simp only [framingError, missSlots_eq]
    exact hu
  unfold endMark
  simp only
  split
  · exact h
  · split
    · split
      · exact roundStart_capacity _ _ _ (cut _ h)
      · exact roundStart_capacity _ _ _ (s := releaseDriver (runEnds s)) h
    · split
      · exact roundStart_capacity _ _ _ (s := (runEnds s).onLine _) h
      · exact h

theorem expireTimer_capacity (input : RoundInput) {s : State} (h : withinCapacity s) : withinCapacity (expireTimer input s) := by
  unfold expireTimer
  split
  · split
    · exact h
    · exact roundStart_capacity _ _ _ (s := s.onLine _) h
  · split
    · exact roundStart_capacity _ _ _ h
    · exact h

theorem startIfDue_capacity (timer : Nat) (input : RoundInput) {s : State} (h : withinCapacity s) :
    withinCapacity (startIfDue timer input s) := by
  unfold startIfDue
  split
  · exact roundStart_capacity _ _ _ h
  · exact h

/-- A stuck line is reported, and nothing else is listed (R99). -/
theorem stickLine_capacity (timer : Nat) (input : RoundInput) {s : State} (h : withinCapacity s) :
    withinCapacity (stickLine timer input s) := by
  unfold stickLine
  split
  · have reported := makeRecord_capacity (.FAULT .line .STUCK) h
    rw [makeRecord_eq] at reported
    rw [loneEntry_eq]
    exact startIfDue_capacity timer input reported
  · exact h

theorem freeTiming_capacity (timer : Nat) (input : RoundInput) {s : State} (h : withinCapacity s) :
    withinCapacity (freeTiming timer input s) := by
  unfold freeTiming
  split
  · have reported := makeRecord_capacity (.FAULT .line .STUCK) h
    rw [makeRecord_eq] at reported
    rw [freeEntry_eq]
    exact startIfDue_capacity timer input reported
  · exact h

theorem leaveLone_capacity {s : State} (h : withinCapacity s) : withinCapacity (leaveLone s) := by
  unfold leaveLone
  split
  · rw [listenEntry_eq]
    exact makeRecord_capacity _ (s := abandonWindow (lineQuiet s)) h
  · exact h

theorem followAgain_capacity {s : State} (h : withinCapacity s) : withinCapacity (followAgain s) := by
  unfold followAgain
  split
  · exact makeRecord_capacity _ (s := (lineQuiet s).onLine _) h
  · exact h

theorem readBackOwn_capacity (bits : BitVec 16) {s : State} (h : withinCapacity s) : withinCapacity (readBackOwn bits s) := by
  unfold readBackOwn
  simp only
  split
  · split
    · exact h
    · split
      · exact makeRecord_capacity _ (s := abandonWindow _) h
      · exact h
  · exact h

theorem takePeerCode_capacity (l : LaneSide) (old new : PeerCode) {s : State} (h : withinCapacity s) :
    withinCapacity (takePeerCode l old new s) :=
  withinCapacity_windows h (by simpa using ((withinCapacity_iff s).mp h).1) fun _ k => k.takePeerCode_keeps l old new

theorem observe_capacity (l : LaneSide) (seen : PeerCode) {s : State} (h : withinCapacity s) :
    withinCapacity (observe l seen s) := by
  have put : ∀ r, withinCapacity (putPeer l r s) := fun r => by cases l <;> exact h
  have zeroed : ∀ u, withinCapacity u → withinCapacity (dormantTimerZero u) := fun _ hu => hu
  simp only [observe]
  generalize (if (peerRecord s l).lastSeen = some seen then seen else (peerRecord s l).confirmed) = confirmed
  split
  · exact put _
  · refine takePeerCode_capacity l _ _ ?_
    split
    · exact put _
    · exact zeroed _ (put _)

theorem handCode_capacity (j : Fin 16) (o : SlotOutcome) {s : State} (h : withinCapacity s) :
    withinCapacity (handCode j o s) := by
  unfold handCode
  split
  · split
    · exact h
    · exact observe_capacity .left _ h
  · split
    · split
      · exact h
      · exact observe_capacity .right _ h
    · exact h

theorem handCalm_capacity (j : Fin 16) (value : Cadence) {s : State} (h : withinCapacity s) :
    withinCapacity (handCalm j value s) := by
  unfold handCalm
  simp only
  split
  · split
    · split
      · exact wake_capacity .CALM (s := s.onAccess _) h
      · exact h
    · exact h
  · exact h

theorem handBeams_capacity (j : Fin 16) (o : SlotOutcome) {s : State} (h : withinCapacity s) :
    withinCapacity (handBeams j o s) := by
  unfold handBeams
  split <;> exact h

theorem slotEnd_capacity (j : Fin 16) (o : SlotOutcome) {s : State} (h : withinCapacity s) :
    withinCapacity (slotEnd j o s) := by
  unfold slotEnd
  split
  · refine handCalm_capacity j _ ?_
    split
    · exact handBeams_capacity j o (handCode_capacity j o (s := (putSlot j o s).onLine _) h)
    · exact h
  · exact h

/-! ## Beams, CLEAR and lamps -/

theorem toggleFlash_capacity (l : LaneSide) {s : State} (h : withinCapacity s) : withinCapacity (toggleFlash l s) := by
  unfold toggleFlash
  split
  · split
    · cases l <;> exact h
    · exact h
    · exact h
  · exact h

theorem sampleClear_capacity (pressed : Bool) {s : State} (h : withinCapacity s) : withinCapacity (sampleClear pressed s) := by
  unfold sampleClear
  simp only
  split
  · exact hushLane_capacity .right .STAFF (hushLane_capacity .left .STAFF (s := s.onLanes _) h)
  · exact h

theorem beamBreak_capacity {s : State} (h : withinCapacity s) : withinCapacity (beamBreak s) := by
  unfold beamBreak
  simp only
  split
  · exact wake_capacity .BRISK (s := s.onTrack _) h
  · exact h

theorem sampleBeams_capacity (hall street : Beam) {s : State} (h : withinCapacity s) :
    withinCapacity (sampleBeams hall street s) := by
  unfold sampleBeams
  simp only
  split
  · split
    · exact h
    · split
      · exact beamBreak_capacity (s := (s.onBeams _).onBeams _) h
      · exact h
  · exact h

/-! ## Every command -/

theorem effect_capacity (c : Instr) {s : State} (h : withinCapacity s) : withinCapacity (effect c s) := by
  have items := ((withinCapacity_iff s).mp h).1
  cases frame : hostFrameOf c with
  | some f => rw [effect_hostFrame frame]; exact completeFrame_capacity f h
  | none =>
    cases c <;> simp only [hostFrameOf, reduceCtorEq] at frame
    case powerOnHold source => exact h
    case powerOn last pins => exact powerOnState_capacity _ _ s
    case markEnd began length input => exact endMark_capacity began length input h
    case roundTimerExpiry input => exact expireTimer_capacity input h
    case followingTimeout input =>
      simp only [effect, timeOutFollowing]
      split
      · exact roundStart_capacity _ _ _ h
      · exact h
    case startMarkSend line =>
      simp only [effect, reachRoundEnd]
      split <;> exact h
    case calmEntry =>
      simp only [effect, calmTest]
      split <;> exact h
    case trackExpiry => exact expireTracks_capacity h
    case cacheAgeing => exact ageCache_capacity h
    case staleNotice => exact dropStale_capacity h
    case minuteBoundary =>
      simp only [effect]
      split
      · exact minuteTurn_capacity h
      · exact h
    case soundLimitExpiry lane =>
      simp only [effect]
      split
      · exact hushLane_capacity lane _ h
      · exact h
    case quietMinute =>
      simp only [effect]
      split
      · exact pendingTest_capacity (quietMinuteTurn_capacity h)
      · exact h
    case listenTimeout =>
      simp only [effect]
      split <;> exact h
    case lineStuck timer input => exact stickLine_capacity timer input h
    case lineStuckTimingFree timer input => exact freeTiming_capacity timer input h
    case loneRecovery => exact leaveLone_capacity h
    case timingFollowingRestored => exact followAgain_capacity h
    case slotReceived station bits => exact slotEnd_capacity station _ h
    case ownSlotReadback bits => exact readBackOwn_capacity bits h
    case requestFieldEnd levels =>
      simp only [effect, endRequests]
      split <;> exact h
    case noticeSlotStart slot =>
      simp only [effect, startNotice]
      (repeat' split) <;> exact h
    case noticeSlotEnd slot levels => exact endNotice_capacity slot levels h
    case replyWindowEnd reception sense =>
      exact withinCapacity_windows h (closeWindow_items reception sense items) fun _ k => k.closeWindow_keeps reception sense
    case followCallEnd reception sense =>
      exact withinCapacity_windows h (endCall_items reception sense items) fun _ k => k.endCall_keeps reception sense
    case halfSweepTimeLimit sense =>
      exact withinCapacity_windows h (limitSweep_items sense items) fun _ k => k.limitSweep_keeps sense
    case sounderEntryEnd =>
      simp only [effect, entryEnd]
      split <;> exact h
    case sounderEndMarkerRecheck =>
      simp only [effect, recheck]
      split <;> exact h
    case flashToggle lane => exact toggleFlash_capacity lane h
    case beamChange hall street => exact sampleBeams_capacity hall street h
    case clearPress => exact sampleClear_capacity true h
    case hostFrameBad bytes => exact receiveBytes_capacity bytes h
    case hostByteGapTimeout before late => exact receiveByte_capacity late (byteGap_capacity (receiveBytes_capacity before h))
    case responseSent pins => exact responseEnd_capacity pins h
    case reportFrameSent => exact reportEnd_capacity h
    case runTooShort =>
      simp only [effect, sendAfterRun]
      split <;> exact h
    case beamSample hall street => exact sampleBeams_capacity hall street h
    case clearSample pressed => exact sampleClear_capacity pressed h
    case sounderSample =>
      simp only [effect, giveSample, entryEnd, recheck]
      (repeat' split) <;> exact h

/-- Settles O5: each command keeps the capacities, and the queue holds none of the lists. -/
theorem capacitiesKept : Obligations.CapacitiesKept := fun _ _ h stepped =>
  step_keeps withinCapacity (fun _ _ h => h) (fun c _ h => effect_capacity c h) h stepped

end Sys2Proof.Machine
end

section
/-! PROOFS. Smoothed strengths (O42), and the parts of a round start that act on counts and lists (O20). -/

namespace Sys2Proof.Machine

/-! ## Smoothed strengths (R23) -/

/-- A quarter step, truncated: it stops short of the whole way, and is 0 where less than a quarter step is left. -/
theorem quarterStep_bounds (d : Int) :
    (0 ≤ d → 0 ≤ Int.tdiv d 4 ∧ Int.tdiv d 4 ≤ d ∧ (d ≤ 3 → Int.tdiv d 4 = 0)) ∧
      (d ≤ 0 → d ≤ Int.tdiv d 4 ∧ Int.tdiv d 4 ≤ 0 ∧ (-3 ≤ d → Int.tdiv d 4 = 0) ∧ (d < 0 → d < Int.tdiv d 4)) := by
  refine ⟨fun rising => ?_, fun falling => ?_⟩
  · rw [Int.tdiv_eq_ediv_of_nonneg rising]
    omega
  · have mirrored : Int.tdiv d 4 = -((-d) / 4) := by
      rw [← Int.tdiv_eq_ediv_of_nonneg (by omega), Int.neg_tdiv, neg_neg]
    rw [mirrored]
    omega

/-- A read moves a strength in range towards 4v and keeps it in range (R23). -/
theorem smooth_present (v : Strength) {x : Nat} (low : 1 ≤ x) (high : x ≤ 508) :
    ∃ y, smooth (some x) v = some y ∧ (y : Int) = x + Int.tdiv (4 * (v.toNat : Int) - x) 4 ∧ 1 ≤ y ∧ y ≤ 508 ∧
      min x (4 * v.toNat) ≤ y ∧ y ≤ max x (4 * v.toNat) ∧
      (4 * v.toNat ≤ x + 3 → x ≤ 4 * v.toNat + 3 → y = x) := by
  have strength : v.toNat < 128 := v.isLt
  obtain ⟨rising, falling⟩ := quarterStep_bounds (4 * (v.toNat : Int) - x)
  refine ⟨_, rfl, ?_⟩
  generalize Int.tdiv (4 * (v.toNat : Int) - x) 4 = step at rising falling
  by_cases up : x ≤ 4 * v.toNat
  · obtain ⟨least, most, still⟩ := rising (by omega)
    refine ⟨?_, ?_, ?_, ?_, ?_, ?_⟩ <;> omega
  · obtain ⟨most, least, still, short⟩ := falling (by omega)
    refine ⟨?_, ?_, ?_, ?_, ?_, ?_⟩ <;> omega

/-- Settles O42. -/
theorem smoothedStrength : Obligations.SmoothedStrength := by
  unfold Obligations.SmoothedStrength
  refine fun v x => ⟨fun loud => by rw [smooth, if_neg loud], by simp [smooth], smooth_present v,
    fun s seen r silent kept => ?_⟩
  simp only [readKept, silent, State.params, Bool.and_eq_true, decide_eq_true_eq] at kept
  simpa using kept.1

/-! ## Parts of a round start (R30, R80, R108, R132) -/

/-- CALM entry is due at calm_after quiet rounds of an AWAKE, BRISK pedestal, and then changes the access unit alone (R132). -/
theorem calmTest_due {s : State} (awake : s.supply.dormancy = .AWAKE) (brisk : s.access.cadence = .BRISK)
    (due : s.host.params.calmAfter ≤ s.access.quietRounds) :
    calmTest s = { s with access := { s.access with cadence := .CALM, quietRounds := 0 } } := by
  simp only [calmTest, awake, brisk, State.params, due, decide_true, Bool.and_self, if_true]
  rfl

theorem calmTest_notDue {s : State}
    (notDue : s.supply.dormancy = .DORMANT ∨ s.access.cadence = .CALM ∨ s.access.quietRounds < s.host.params.calmAfter) :
    calmTest s = s := by
  rcases notDue with dormant | calm | few
  · simp [calmTest, dormant]
  · simp [calmTest, calm]
  · simp [calmTest, State.params, Nat.not_le.mpr few]

/-- A SIGHTING notice stays in the outbox for 5 rounds, the others for good (R108). -/
theorem notStale_eq (now : Round) (n : Notice) :
    (!(isSighting n && decide (Config.staleRounds ≤ roundsSince now n.built))) =
      match n.body with
      | .SIGHTING _ => decide ((now - n.built).toNat < 5)
      | .VERDICT _ => true
      | .EXCUSE _ => true := by
  cases body : n.body with
  | SIGHTING es =>
    simp only [isSighting, body, Bool.true_and, ← decide_not, Nat.not_le]
    rfl
  | VERDICT es => simp [isSighting, body]
  | EXCUSE es => simp [isSighting, body]

/-- A part of a cache entry that is at most peer_age rounds old (R30). -/
theorem notOld_eq (s : State) (p : Option PeerStrength) :
    (!partOld s p) =
      match p with
      | none => false
      | some p => decide ((s.line.round - p.received).toNat ≤ s.host.params.peerAge) := by
  cases p with
  | none => rfl
  | some p =>
    simp only [partOld, ← decide_not, Nat.not_lt]
    rfl

/-- Settles O20. -/
theorem roundPartsAct : Obligations.RoundPartsAct := by
  unfold Obligations.RoundPartsAct
  refine ⟨fun s running => ⟨fun awake brisk due => ?_, fun notDue => ?_, fun due => ?_, fun notDue => ?_⟩,
    fun s running => ⟨?_, fun idle => ?_, fun flying => ?_⟩⟩ <;> rw [exec_running _ running] <;> simp only [effect]
  · rw [calmTest_due awake brisk due]
  · rw [calmTest_notDue notDue]
  · have reached : minuteDue s = true := decide_eq_true due
    rw [if_pos reached]
    rfl
  · have early : minuteDue s = false := decide_eq_false (Nat.not_le.mpr notDue)
    simp [early]
  · simp only [ageCache, Bool.not_and, notOld_eq]
    rfl
  · simp only [dropStale, boundNotices, looseNotices, idle, if_true, List.nil_append, State.onNotices, notStale_eq]
    rfl
  · simp only [dropStale, boundNotices, looseNotices, flying, if_false, State.onNotices, notStale_eq]
    rfl

end Sys2Proof.Machine
end

section
/-! PROOFS. The expiry of tracks and its reports (O22), and the fade rule's ALARM (O23). -/

namespace Sys2Proof.Machine

/-! ## The re-arming test of both machines (R148) -/

/-- Whether a lane is free to re-arm: not occupied, and its peer code neither SOUND nor HUSH-OCC (R148). -/
def laneFree (s : State) (l : LaneSide) : Bool := !occupied s l && !blocksRearm (peerRecord s l).confirmed

/-- The machine of a lane after the re-arming test (R148). -/
def rearmed (s : State) (l : LaneSide) : LaneState :=
  if hasLane s l && isHushed (laneState s l) && laneFree s l then .ARMED else laneState s l

theorem rearm_rearmed (l : LaneSide) (s : State) : rearm l s = putLane l (rearmed s l) s := by
  rw [rearm_eq, rearmed, laneFree, ← Bool.and_assoc]
  split
  · rfl
  · exact (putLane_same l s).symm

/-- The re-arming test of both machines changes them as `rearmed` says, and nothing else. -/
theorem rearmBoth_eq (s : State) :
    rearmBoth s = { s with lanes := { s.lanes with left := rearmed s .left, right := rearmed s .right } } := by
  rw [rearmBoth, rearm_rearmed .left, rearm_rearmed .right]
  rfl

theorem rearmed_notHushed {s : State} {l : LaneSide} (h : isHushed (laneState s l) = false) : rearmed s l = laneState s l := by
  simp [rearmed, h]

/-! ## The expiry of one track (R35) -/

/-- A record of a table with one record an item is the one found for its item. -/
theorem findTrack_of_mem {s : State} {x : Track} (nodup : (s.track.table.map Track.item).Nodup) (mem : x ∈ s.track.table) :
    findTrack s x.item = some x := by
  obtain ⟨before, after, table⟩ := List.append_of_mem mem
  exact findTrack_of_split nodup table

/-- The part without the records of an item, before the lanes are tested for re-arming (R35). -/
def withoutItem (item : ItemCode) (s : State) : State :=
  { s with track := { s.track with table := s.track.table.filter fun t => t.item ≠ item } }

theorem removeTrack_eq (item : ItemCode) (s : State) :
    removeTrack item s =
      { withoutItem item s with
        lanes :=
          { s.lanes with left := rearmed (withoutItem item s) .left, right := rearmed (withoutItem item s) .right } } := by
  have removed : (s.onTrack fun u => { u with table := u.table.filter fun t => t.item ≠ item }) = withoutItem item s := rfl
  rw [removeTrack, removed, rearmBoth_eq]
  rfl

/-- A track that does not fade expires with its report alone (R35, R56). -/
theorem expireTrack_stays {s : State} {x : Track} (found : findTrack s x.item = some x) (stays : fades s x = false) :
    expireTrack x.item s = removeTrack x.item (reportPassage x.item s) := by
  simp [expireTrack, found, stays]

theorem fades_verdict {s : State} {x : Track} (given : x.verdict ≠ none) : fades s x = false := by
  cases verdict : x.verdict with
  | none => exact absurd verdict given
  | some v => simp [fades, verdict]

/-- A track whose report is due is reported as it stands (R35, R73). -/
theorem reportPassage_due {s : State} {x : Track} (found : findTrack s x.item = some x)
    (due : x.phase ≠ .OPEN ∨ x.verdict ≠ none) : reportPassage x.item s = makeRecord (passageReport s x) s := by
  have reports : (x.phase ≠ .OPEN || x.verdict.isSome) = true := by
    rcases due with due | due <;> simp [due, Option.isSome_iff_ne_none]
  simp only [reportPassage, found, reports, if_true]

/-- A track that does not fade, and whose report is due, leaves its report and no notice and no count (R35, R73). -/
theorem expireTrack_reports {s : State} {x : Track} (found : findTrack s x.item = some x) (stays : fades s x = false)
    (due : x.phase ≠ .OPEN ∨ x.verdict ≠ none) :
    (expireTrack x.item s).notices = s.notices ∧ (expireTrack x.item s).beams = s.beams ∧
      (expireTrack x.item s).host = recorded s.line.round (passageReport s x) s.host := by
  rw [expireTrack_stays found stays, reportPassage_due found due, removeTrack_eq, makeRecord_eq]
  exact ⟨rfl, rfl, rfl⟩

/-! ## The expiry of the tracks (R36) -/

/-- A list of items expires: the records of these items leave the table. -/
theorem expireTrack_fold (items : List ItemCode) (s : State) :
    (items.foldl (fun s item => expireTrack item s) s).track =
      { s.track with table := s.track.table.filter fun t => t.item ∉ items } := by
  induction items generalizing s with
  | nil => simp
  | cons item rest ih =>
    rw [List.foldl_cons, ih, expireTrack_table, List.filter_filter]
    simp only [TrackUnit.mk.injEq, and_true]
    refine List.filter_congr fun t _ => ?_
    simp [Bool.and_comm]

/-- The records overdue are those of the items overdue, when items stand once. -/
theorem overdue_item {s : State} (nodup : (s.track.table.map Track.item).Nodup) {x : Track} (mem : x ∈ s.track.table) :
    x.item ∈ (s.track.table.filter (overdue s)).map Track.item ↔ overdue s x = true := by
  refine ⟨fun h => ?_, fun h => List.mem_map_of_mem (List.mem_filter.mpr ⟨mem, h⟩)⟩
  obtain ⟨y, hy, same⟩ := List.mem_map.mp h
  obtain ⟨yMem, late⟩ := List.mem_filter.mp hy
  rwa [← List.inj_on_of_nodup_map nodup yMem mem same]

/-- Exactly the overdue records leave the table (R36). -/
theorem expireTracks_table {s : State} (nodup : (s.track.table.map Track.item).Nodup) :
    (expireTracks s).track = { s.track with table := s.track.table.filter fun x => !overdue s x } := by
  rw [expireTracks, expireTrack_fold]
  simp only [TrackUnit.mk.injEq, and_true]
  refine List.filter_congr fun x mem => ?_
  have late := overdue_item nodup mem
  cases h : overdue s x <;> simp [late, h]

/-- The one overdue track expires alone. -/
theorem expireTracks_single {s : State} {x : Track} (nodup : (s.track.table.map Track.item).Nodup)
    (alone : s.track.table.filter (overdue s) = [x]) :
    expireTracks s = expireTrack x.item s ∧ findTrack s x.item = some x := by
  have mem : x ∈ s.track.table := (List.mem_filter.mp (alone ▸ List.mem_singleton_self x)).1
  exact ⟨by simp [expireTracks, alone], findTrack_of_mem nodup mem⟩

theorem notOverdue_eq (s : State) (x : Track) :
    (!overdue s x) = decide ((s.line.round - x.lastRead).toNat ≤ s.host.params.linger) := by
  simp only [overdue, ← decide_not, Nat.not_lt]
  rfl

/-! ## The tag entries at expiry (R51, R71) -/

theorem countVerdict_tagEntries (o : Outcome) (side : Side) (s : State) :
    (countVerdict o side s).beams.counts.tagEntries = s.beams.counts.tagEntries := by
  unfold countVerdict onCounts
  split
  · rfl
  · split
    · cases o <;> rfl
    · rfl

theorem verdictEffects_tagEntries (o : Outcome) (item : ItemCode) (side : Side) (s : State) :
    (verdictEffects o item side s).1.beams.counts.tagEntries = s.beams.counts.tagEntries := by
  cases o <;> simp only [verdictEffects]
  · exact countVerdict_tagEntries _ _ _
  · exact countVerdict_tagEntries _ _ _
  · split <;> simp [countVerdict_tagEntries]

theorem giveVerdict_tagEntries (item : ItemCode) (d : Direction) (s : State) :
    (giveVerdict item d s).beams.counts.tagEntries = s.beams.counts.tagEntries := by
  cases found : findTrack s item with
  | none => simp [giveVerdict, found]
  | some t =>
    rw [giveVerdict_found d found]
    have settled : (sideSettled item t s).beams = s.beams := by
      unfold sideSettled
      split <;> simp
    simp [verdictEffects_tagEntries, settled]

theorem expireTrack_tagEntries (item : ItemCode) (s : State) :
    (expireTrack item s).beams.counts.tagEntries = s.beams.counts.tagEntries := by
  unfold expireTrack
  split
  · rfl
  · split <;> simp [giveVerdict_tagEntries]

theorem expireTracks_tagEntries (s : State) :
    (expireTracks s).beams.counts.tagEntries = s.beams.counts.tagEntries :=
  foldl_keeps (fun u => u.beams.counts.tagEntries) _ (fun u item => expireTrack_tagEntries item u) _ s

/-! ## What the fade rule spares (R56) -/

theorem fades_spared {s : State} {x : Track}
    (spared : (∀ d, x.lastD = some d → d < s.host.params.tSide) ∨ x.startSide = .STREET ∨
      ¬(s.field.coilH = .OK ↔ s.field.coilS = .OK)) : fades s x = false := by
  rcases spared with low | street | one
  · cases last : x.lastD with
    | none => simp [fades, last]
    | some d =>
      have below : ¬(s.params.tSide : Int) ≤ d := Int.not_le.mpr (low d last)
      simp [fades, last, below]
  · simp [fades, street]
  · have single : oneFault s = true := by
      by_cases h : s.field.coilH = .OK <;> by_cases h' : s.field.coilS = .OK <;>
        simp [oneFault, coilFault, coilState, h, h'] at one ⊢
    simp [fades, single]

/-- The direction a PASSAGE report gives with a verdict (R52). -/
theorem reportDirection_verdict {x : Track} {v : VerdictRecord} (given : x.verdict = some v) :
    reportDirection x =
      match v.direction, x.phase with
      | .FADE_OUT, _ => .FADE_OUT
      | _, .BACK => .BACK
      | .UNKNOWN, _ => .UNKNOWN
      | .OUT, .IN => .IN
      | .OUT, .OUT => .OUT
      | .OUT, .OPEN => .OUT := by
  cases direction : v.direction <;> cases phase : x.phase <;> simp [reportDirection, given, direction, phase]

/-! ## The lanes at expiry (R140, R148) -/

/-- A record with its verdict expires: the lanes are tested for re-arming without it, and that is all that happens to them. -/
theorem expireTrack_lane (l : LaneSide) {item : ItemCode} {s : State} {x : Track} (found : findTrack s item = some x)
    (given : x.verdict ≠ none) : laneState (expireTrack item s) l = rearmed (withoutItem item s) l := by
  obtain rfl := findTrack_item found
  rw [expireTrack_stays found (fades_verdict given), reportPassage_due found (.inr given), removeTrack_eq, makeRecord_eq]
  cases l <;> rfl

theorem laneFree_withoutItem {item : ItemCode} {s : State} (l : LaneSide) (free : laneFree s l = true) :
    laneFree (withoutItem item s) l = true := by
  simp only [laneFree, Bool.and_eq_true, Bool.not_eq_true', occupied, List.any_eq_false] at free ⊢
  obtain ⟨empty, code⟩ := free
  exact ⟨fun t mem => empty t (List.mem_filter.mp mem).1, by cases l <;> exact code⟩

theorem laneFree_congr {s t : State} (l : LaneSide) (track : t.track = s.track) (line : t.line = s.line)
    (supply : t.supply = s.supply) : laneFree t l = laneFree s l := by
  cases s
  cases t
  cases track
  cases line
  cases supply
  cases l <;> rfl

/-- The machine of a lane that stood at `m`, HUSHED ones re-armed as soon as their lane is free. -/
def rearmsWhenFree (m : LaneState) (l : LaneSide) (s : State) : Prop :=
  laneState s l = if isHushed m && laneFree s l then .ARMED else m

/-- The removal of a record, and the re-arming test after it, keep this. -/
theorem rearmed_withoutItem {m : LaneState} {l : LaneSide} {s : State} (item : ItemCode) (has : hasLane s l = true)
    (h : rearmsWhenFree m l s) :
    rearmed (withoutItem item s) l = if isHushed m && laneFree (withoutItem item s) l then .ARMED else m := by
  have sameLane : laneState (withoutItem item s) l = laneState s l := by cases l <;> rfl
  have stillHas : hasLane (withoutItem item s) l = true := by cases l <;> exact has
  rw [rearmsWhenFree] at h
  rw [rearmed, sameLane, stillHas, h]
  cases hushed : isHushed m with
  | false => simp [hushed]
  | true =>
    cases free : laneFree s l with
    | false => simp [hushed]
    | true => simp [laneFree_withoutItem l free, isHushed]

/-- While records with verdicts expire, a machine follows its lane (R148). -/
theorem expireTracks_lane {m : LaneState} {l : LaneSide} (items : List ItemCode) {s : State} (has : hasLane s l = true)
    (given : ∀ x ∈ s.track.table, x.item ∈ items → x.verdict ≠ none) (h : rearmsWhenFree m l s) :
    rearmsWhenFree m l (items.foldl (fun s item => expireTrack item s) s) := by
  induction items generalizing s with
  | nil => exact h
  | cons item rest ih =>
    cases found : findTrack s item with
    | none =>
      rw [List.foldl_cons, show expireTrack item s = s by simp [expireTrack, found]]
      exact ih has (fun x mem listed => given x mem (List.mem_cons_of_mem _ listed)) h
    | some x =>
      have verdict : x.verdict ≠ none :=
        given x (List.mem_of_find?_eq_some found) (findTrack_item found ▸ List.mem_cons_self)
      have table := expireTrack_table item s
      rw [List.foldl_cons]
      refine ih ?_ (fun y mem listed => ?_) ?_
      · cases l <;> simpa [hasLane, hasLeft, hasRight, State.station] using has
      · rw [table] at mem
        exact given y (List.mem_filter.mp mem).1 (List.mem_cons_of_mem _ listed)
      · rw [rearmsWhenFree, expireTrack_lane l found verdict, rearmed_withoutItem item has h,
          laneFree_congr (s := withoutItem item s) (t := expireTrack item s) l table (by simp [withoutItem])
            (by simp [withoutItem])]

/-! ## The statement of expiry -/

/-- A record's side names a lane in the words of the statement. -/
theorem sideNames_eq (s : State) (side : Side) (l : LaneSide) :
    sideNames s side l =
      (decide (side = match l with | .left => .LEFT | .right => .RIGHT) ||
        (decide (side = .UNSURE) && decide (s.supply.straps.station.val ≠ 0) && decide (s.supply.straps.isEnd = false))) := by
  cases l <;> cases side <;> cases h : s.supply.straps.isEnd <;>
    simp [sideNames, twoLanes, hasLeft, hasRight, State.station, h]

/-- When the lane is free after the expiry (R140, R148). -/
theorem laneFree_expired {s : State} (l : LaneSide) (nodup : (s.track.table.map Track.item).Nodup) :
    laneFree (expireTracks s) l = true ↔
      (∀ x ∈ s.track.table, overdue s x = false → sideNames s x.side l = false) ∧
        (peerRecord s l).confirmed ≠ .code .SOUND ∧ (peerRecord s l).confirmed ≠ .code .HUSH_OCC := by
  have kept : laneFree (expireTracks s) l =
      laneFree { s with track := { s.track with table := s.track.table.filter fun x => !overdue s x } } l :=
    laneFree_congr l (expireTracks_table nodup) (by simp) (by simp)
  have code : blocksRearm (peerRecord s l).confirmed = false ↔
      (peerRecord s l).confirmed ≠ .code .SOUND ∧ (peerRecord s l).confirmed ≠ .code .HUSH_OCC := by
    simp [blocksRearm]
  have occupants : occupied { s with track := { s.track with table := s.track.table.filter fun x => !overdue s x } } l = false ↔
      ∀ x ∈ s.track.table, overdue s x = false → sideNames s x.side l = false := by
    simp only [occupied, List.any_eq_false, List.mem_filter, Bool.not_eq_true', and_imp, Bool.not_eq_true]
    cases l <;> rfl
  rw [kept, laneFree, Bool.and_eq_true, Bool.not_eq_true', Bool.not_eq_true', occupants, ← code]
  cases l <;> rfl

/-- Settles O22. -/
theorem trackExpiryReports : Obligations.TrackExpiryReports := by
  unfold Obligations.TrackExpiryReports
  refine ⟨fun s running nodup => ?_, fun s x running nodup alone => ?_, fun l s running nodup => ?_⟩
  · refine ⟨_, exec_running _ running, ?_⟩
    simp only [effect, expireTracks_table nodup, notOverdue_eq]
    simp [expireTracks_tagEntries]
  · obtain ⟨single, found⟩ := expireTracks_single nodup alone
    have taken : exec .trackExpiry s = .next (expireTrack x.item s) := by
      rw [exec_running _ running, effect, single]
    intro spared
    refine ⟨fun v given known => ?_, fun noVerdict phase spares => ?_, fun noVerdict phase spares => ?_⟩
    · have some_verdict : x.verdict ≠ none := by simp [given]
      obtain ⟨notices, beams, host⟩ := expireTrack_reports found (fades_verdict some_verdict) (.inr some_verdict)
      refine ⟨_, taken, notices, beams, host.trans ?_⟩
      simp only [passageReport, given, reportDirection_verdict given] <;> rfl
    · obtain ⟨notices, beams, host⟩ := expireTrack_reports found (fades_spared spares) (.inl (by simp [phase]))
      refine ⟨_, taken, notices, beams, host.trans ?_⟩
      simp only [passageReport, noVerdict, reportDirection, phase] <;> rfl
    · refine ⟨_, taken, ?_⟩
      rw [expireTrack_silent found (fades_spared spares) phase noVerdict, removeTrack_eq]
      exact ⟨rfl, rfl, rfl⟩
  · intro station gone own names machine code has given
    have machineOf : ∀ u : State, machine u.lanes = laneState u l := fun u => by cases l <;> rfl
    have codeOf : code = (peerRecord s l).confirmed := by cases l <;> rfl
    have namesOf : ∀ x, names x = sideNames s x.side l := fun x => (sideNames_eq s x.side l).symm
    have hasIt : hasLane s l = true := by
      cases l
      · exact decide_eq_true has
      · simpa [hasLane, hasRight] using has
    have freed : laneFree (expireTracks s) l = true ↔
        (∀ x ∈ s.track.table, gone x = false → names x = false) ∧ code ≠ .code .SOUND ∧ code ≠ .code .HUSH_OCC := by
      simp only [laneFree_expired l nodup, namesOf, codeOf]
      rfl
    have verdicts : ∀ x ∈ s.track.table, x.item ∈ (s.track.table.filter (overdue s)).map Track.item →
        x.verdict ≠ none := fun x mem listed => given x mem ((overdue_item nodup mem).mp listed)
    have follows : ∀ m, rearmsWhenFree m l s → rearmsWhenFree m l (expireTracks s) := fun m h =>
      expireTracks_lane _ hasIt verdicts h
    refine ⟨_, exec_running _ running, fun awake => ?_, fun lit hushed leaving => ?_⟩
    · have still : isHushed (laneState s l) = false := by
        cases state : laneState s l with
        | HUSHED lit => exact absurd ((machineOf s).trans state) (awake lit)
        | ARMED => rfl
        | SOUNDING t => rfl
      have after := follows (laneState s l) (by simp [rearmsWhenFree, still])
      rw [rearmsWhenFree, still] at after
      rw [machineOf, machineOf]
      simpa [effect] using after
    · obtain ⟨x, mem, -, named⟩ := leaving
      have taken : laneFree s l = false := by
        have holds : occupied s l = true := List.any_eq_true.mpr ⟨x, mem, namesOf x ▸ named⟩
        simp [laneFree, holds]
      have after := follows (.HUSHED lit) (by simp [rearmsWhenFree, taken, ← hushed, machineOf])
      rw [machineOf]
      refine after.trans ?_
      by_cases free : laneFree (expireTracks s) l = true
      · rw [if_pos (by simp [isHushed, free]), if_pos (freed.mp free)]
      · rw [if_neg (by simp [free]), if_neg fun h => free (freed.mpr h)]

end Sys2Proof.Machine
end

section
/-! PROOFS. The fade rule's ALARM at expiry (O23). -/

namespace Sys2Proof.Machine

/-! ## The verdict of a fading track (R56, R69, R73) -/

/-- A track without a verdict that left the hall side before it faded fades, with both coils OK or both FAULT (R56). -/
theorem fades_due {s : State} {x : Track} {d : Int} (noVerdict : x.verdict = none) (phase : x.phase = .OPEN ∨ x.phase = .IN)
    (notStreet : x.startSide ≠ .STREET) (last : x.lastD = some d) (high : (s.host.params.tSide : Int) ≤ d)
    (coils : s.field.coilH = .OK ↔ s.field.coilS = .OK) : fades s x = true := by
  have both : oneFault s = false := by
    by_cases h : s.field.coilH = .OK <;> simp [oneFault, coilFault, coilState, h, coils.mp, ← coils]
  have before : beforeOut x.phase = true := by rcases phase with h | h <;> simp [beforeOut, h]
  simp [fades, noVerdict, before, notStreet, both, last, State.params, high]

/-- The PASSAGE report of a track that the fade rule gave an ALARM (R52, R73). -/
def fadePassage (x : Track) (lane : Option Nat) (held : Bool) : ReportBody :=
  .PASSAGE x.item x.loan lane .FADE_OUT (some .ALARM) held x.peerAlarm.isSome (x.lastRead - x.firstRound)

theorem passageReport_fade (s : State) (x : Track) (lane : Option Nat) (held : Bool) :
    passageReport s (writeVerdict .ALARM .FADE_OUT lane held x) = fadePassage x lane held := rfl

theorem findTrack_updTrack {s : State} {x : Track} {f : Track → Track} (found : findTrack s x.item = some x)
    (kept : ∀ t, (f t).item = t.item) : findTrack (updTrack x.item f s) x.item = some (f x) := by
  have same : ∀ t : Track, (if t.item = x.item then f t else t).item = t.item := fun t => by split <;> simp [kept]
  simp only [findTrack, updTrack, onTrack_track, List.find?_map, Function.comp_def, same] at found ⊢
  rw [found]
  simp

/-- A track whose side is settled as it stands takes its ALARM from the fade rule: what the effects of the outcome leave is
left, with the PASSAGE report, and machines that are not HUSHED stay in their state (R35, R56, R69, R73). -/
theorem expireTrack_alarm {s a : State} {x : Track} {held : Bool} (found : findTrack s x.item = some x)
    (fading : fades s x = true) (settled : settledSide s x = x.side) (outcome : outcomeOf s x.item x.loan = .ALARM)
    (acts : verdictEffects .ALARM x.item x.side s = (a, held)) :
    (expireTrack x.item s).notices = a.notices ∧ (expireTrack x.item s).beams = a.beams ∧
      (expireTrack x.item s).host = recorded a.line.round (fadePassage x (reportLane s x.side) held) a.host ∧
      (expireTrack x.item s).lanes.clear = a.lanes.clear ∧
      ∀ l, isHushed (laneState a l) = false → laneState (expireTrack x.item s) l = laneState a l := by
  have track : a.track = s.track := by
    have := verdictEffects_track .ALARM x.item x.side s
    rwa [acts] at this
  have foundA : findTrack a x.item = some x := by rwa [findTrack, track]
  have given : giveVerdict x.item .FADE_OUT s =
      updTrack x.item (writeVerdict .ALARM .FADE_OUT (reportLane s x.side) held) a := by
    rw [giveVerdict_found .FADE_OUT found]
    simp only [sideSettled, settled, if_true, outcome, acts]
  have written := findTrack_updTrack (f := writeVerdict .ALARM .FADE_OUT (reportLane s x.side) held) foundA fun _ => rfl
  have expired : expireTrack x.item s =
      removeTrack x.item (makeRecord (fadePassage x (reportLane s x.side) held)
        (updTrack x.item (writeVerdict .ALARM .FADE_OUT (reportLane s x.side) held) a)) := by
    have reports := reportPassage_due (x := writeVerdict .ALARM .FADE_OUT (reportLane s x.side) held x) written
      (.inr (by simp [writeVerdict]))
    rw [expireTrack, found]
    simp only [fading, if_true, given]
    exact congrArg _ reports
  rw [expired, makeRecord_eq, removeTrack_eq]
  refine ⟨rfl, rfl, rfl, rfl, fun l still => ?_⟩
  cases l <;> exact rearmed_notHushed still

theorem laneUnit_ext {u v : LaneUnit} (left : u.left = v.left) (right : u.right = v.right) (clear : u.clear = v.clear) :
    u = v := by
  cases u
  cases v
  cases left
  cases right
  cases clear
  rfl

/-! ## The effects of an ALARM on one lane (R63, R70 to R72, R142) -/

/-- The side that names a lane. -/
def sideOf : LaneSide → Side
  | .left => .LEFT
  | .right => .RIGHT

theorem lanesOf_sideOf {s : State} {l : LaneSide} (has : hasLane s l = true) : lanesOf s (sideOf l) = [l] := by
  cases l <;> simp [lanesOf, sideOf, has]

theorem laneState_enterSounding (l : LaneSide) (cause : LaneCause) (s : State) :
    laneState (enterSounding l cause s) l = .SOUNDING s.host.params.soundLimit := by
  cases l <;> simp [laneState, enterSounding_lanes, putLane]

theorem ownAlarm_hushed {l : LaneSide} {lit : Bool} {s : State} (hushed : laneState s l = .HUSHED lit) :
    ownAlarm l s = (s, true) := by
  simp [ownAlarm, hushed]

/-- The beam unit after an ALARM on one lane: counted in the own right lane alone (R71). -/
def alarmCounted (l : LaneSide) (b : BeamUnit) : BeamUnit :=
  match l with
  | .left => b
  | .right => { b with counts := { b.counts with tagAlarms := b.counts.tagAlarms + 1 } }

theorem countVerdict_sideOf {s : State} {l : LaneSide} (has : hasLane s l = true) :
    countVerdict .ALARM (sideOf l) s = s.onBeams (alarmCounted l) := by
  cases l with
  | left => rfl
  | right =>
    have right : hasRight s = true := has
    simp [countVerdict, sideOf, onCounts, right]
    rfl

/-- An ALARM on the one lane `l`, whose machine answers with the part `told` and held or not. -/
theorem verdictEffects_lane {item : ItemCode} {s told : State} {held : Bool} {l : LaneSide} (has : hasLane s l = true)
    (room : s.notices.outbox.length < 8) (answer : ownAlarm l s = (told, held)) :
    verdictEffects .ALARM item (sideOf l) s =
      ((told.onBeams (alarmCounted l)).onNotices fun q =>
          { q with
            outbox :=
              q.outbox ++
                [{ body := .VERDICT [{ item := item, lane := BitVec.ofNat 4 (laneNumber s l), verdict := 1 }]
                   built := s.line.round }] },
        held) := by
  have asked : ownAlarms [l] s = (told, held) := by simp only [ownAlarms, answer, Bool.or_false]
  have stillHas : hasLane told l = true := by
    have supply : told.supply = s.supply := by
      obtain ⟨-, -, -, -, -, -, -, supply, -⟩ := ownAlarm_frame l s
      rwa [answer] at supply
    cases l <;> simpa [hasLane, hasLeft, hasRight, State.station, supply] using has
  rw [verdictEffects_alarm (lanesOf_sideOf has) (by simp) room, asked, countVerdict_sideOf stillHas]
  rfl

/-! ## The statement -/

/-- Settles O23. -/
theorem fadeAlarmAtExpiry : Obligations.FadeAlarmAtExpiry := by
  unfold Obligations.FadeAlarmAtExpiry
  intro s x d running nodup alone noVerdict phase notStreet last high coils fails notExcused room station
    passage queued counted
  obtain ⟨single, found⟩ := expireTracks_single nodup alone
  have fading := fades_due noVerdict phase notStreet last high coils
  have outcome : outcomeOf s x.item x.loan = .ALARM := outcomeOf_alarm fails notExcused
  have taken : exec .trackExpiry s = .next (expireTrack x.item s) := by
    rw [exec_running _ running, effect, single]
  refine ⟨fun l names => ?_, fun unsure notFirst notEnd noPeerAlarm leftUnseen rightUnseen armedLeft armedRight => ?_⟩
  · intro number machine common
    have machineOf : ∀ u : State, machine u.lanes = laneState u l := fun u => by cases l <;> rfl
    obtain ⟨side, has⟩ : x.side = sideOf l ∧ hasLane s l = true := by
      cases l
      · exact ⟨names.1, decide_eq_true names.2⟩
      · exact ⟨names.1, by simp [hasLane, hasRight, names.2]⟩
    have settled : settledSide s x = x.side := by cases l <;> simp [settledSide, side, sideOf]
    have lane : reportLane s x.side = some number := by cases l <;> rw [side] <;> rfl
    have alarm : ∀ told held, ownAlarm l s = (told, held) → told.line = s.line → told.notices = s.notices →
        told.beams = s.beams →
        common (expireTrack x.item s) ∧
          (expireTrack x.item s).host = recorded s.line.round (passage (some number) held) told.host ∧
          (isHushed (laneState told l) = false → laneState (expireTrack x.item s) l = laneState told l) := by
      intro told held answer line notices beams
      have acts := verdictEffects_lane (item := x.item) has room answer
      obtain ⟨noticesT, beamsT, hostT, -, still⟩ := expireTrack_alarm found fading settled outcome (side ▸ acts)
      refine ⟨⟨noticesT.trans ?_, beamsT.trans ?_⟩, hostT.trans ?_, fun awake => ?_⟩
      · cases l <;> simp [notices, queued, number, laneNumber, station, State.station]
      · cases l <;> simp [beams, alarmCounted, counted]
      · rw [lane]
        simp [fadePassage, passage, line]
      · have same : ∀ u : State, u.lanes = told.lanes → laneState u l = laneState told l := fun u h => by
          cases l <;> simp [laneState, h]
        refine (still l ?_).trans ?_
        · rw [same _ (by simp)]; exact awake
        · exact same _ (by simp)
    refine ⟨fun armed => ?_, fun lit hushed => ?_⟩
    · obtain ⟨effects, host, still⟩ :=
        alarm _ _ (ownAlarm_armed ((machineOf s).symm.trans armed)) (by simp) (by simp) (by simp)
      have numbered : laneNumber s l = number := by cases l <;> rfl
      rw [enterSounding_host, numbered] at host
      rw [laneState_enterSounding] at still
      exact ⟨_, taken, effects, (machineOf _).trans (still rfl), host⟩
    · obtain ⟨effects, host, -⟩ := alarm _ _ (ownAlarm_hushed ((machineOf s).symm.trans hushed)) rfl rfl rfl
      exact ⟨_, taken, effects, host⟩
  · have left : hasLane s .left = true := decide_eq_true notFirst
    have right : hasRight s = true := by simp [hasRight, notEnd]
    have settled : settledSide s x = x.side := by
      simp [settledSide, unsure, noPeerAlarm, recent, leftUnseen, rightUnseen]
    have acts := verdictEffects_both (item := x.item) left right armedLeft armedRight room unsure
    obtain ⟨notices, beams, host, clear, still⟩ := expireTrack_alarm found fading settled outcome acts
    refine ⟨_, taken, notices.trans ?_, beams.trans ?_, laneUnit_ext ?_ ?_ ?_, host.trans ?_⟩
    · simp [queued, laneNumber, station, State.station]
    · simp [counted]
    · exact (still .left (by simp [laneState, enterSounding_lanes, putLane, isHushed])).trans
        (by simp [laneState, enterSounding_lanes, putLane])
    · exact (still .right (by simp [laneState, enterSounding_lanes, putLane, isHushed])).trans
        (by simp [laneState, enterSounding_lanes, putLane])
    · exact clear.trans (by simp)
    · simp [unsure, reportLane, fadePassage, passage, enterSounding_host, laneNumber, station, State.station]

end Sys2Proof.Machine
end

section
/-! PROOFS. What a received notice does (O33). -/

namespace Sys2Proof.Machine

/-! ## The slot of a good notice (R115 to R119) -/

theorem slotIdle_data {levels : List Bool} {body : NoticeBody} (good : noticeBody (slotData levels) = some body) :
    slotIdle (slotData levels) = false := by
  by_contra idle
  have recessive : ∀ b ∈ slotData levels, b = true := by simpa [slotIdle] using idle
  have slice : bitSlice 5 2 (slotData levels) = [true, true] := by
    have all : slotData levels = List.replicate 630 true :=
      List.eq_replicate_iff.mpr ⟨pickData_length _ _, recessive⟩
    rw [all, bitSlice, List.drop_replicate, List.take_replicate]
    rfl
  have kind : natOfBits (bitSlice 5 2 (slotData levels)) = 3 := by rw [slice]; rfl
  simp [noticeBody, kind] at good

/-- The part after a slot read whole in SYNCED, its notice not yet dispatched: the timer at the end of the slot, and the notice
class FRESH after a recessive class bit (R115, R195). -/
def slotHeard (slot : Fin 24) (data : List Bool) (s : State) : State :=
  { s with
    line :=
      { s.line with
        timer := 292 + 720 * slot.val + 719
        noticeClass := if data.headD true = true then .FRESH else s.line.noticeClass } }

/-- A SYNCED pedestal that does not contend receives the slot (R115, R116). -/
theorem slotEndSynced_listens (data : List Bool) {s : State} (idle : s.notices.inFlight = .NONE) :
    slotEndSynced data s = receiveSlot data (classAfterSlot data s) := by
  have unplaced : readBackNotice data s = s := by simp [readBackNotice, placedBits, idle]
  simp only [slotEndSynced, unplaced, idle]

/-- A good notice of another station is dispatched (R117 to R119). -/
theorem receiveSlot_good {levels : List Bool} {body : NoticeBody} {s : State}
    (other : noticeStation (slotData levels) ≠ s.supply.straps.station) (good : noticeBody (slotData levels) = some body) :
    receiveSlot (slotData levels) s = dispatchNotice (noticeStation (slotData levels)) body s := by
  have notOwn : ¬(noticeStation (slotData levels)).val = s.station := fun same => other (Fin.ext same)
  simp [receiveSlot, slotIdle_data good, checkNotice, good, notOwn]

theorem classAfterSlot_good {slot : Fin 24} {levels : List Bool} {body : NoticeBody} {s : State}
    (good : noticeBody (slotData levels) = some body) :
    classAfterSlot (slotData levels) (putTimer (noticeLastBit slot.val) s) = slotHeard slot (slotData levels) s := by
  simp only [classAfterSlot, slotIdle_data good, Bool.false_or, slotHeard]
  cases (slotData levels).headD true <;> rfl

/-- The end of a slot with a good notice of another station, for a SYNCED pedestal that did not contend (R116 to R119). -/
theorem noticeSlotEnd_good (slot : Fin 24) {levels : List Bool} {body : NoticeBody} {s : State} (running : heldInReset s = false)
    (whole : levels.length = 720) (idle : s.notices.inFlight = .NONE) (synced : s.line.state = .SYNCED)
    (other : noticeStation (slotData levels) ≠ s.supply.straps.station) (good : noticeBody (slotData levels) = some body) :
    exec (.noticeSlotEnd slot levels) s =
      .next (dispatchNotice (noticeStation (slotData levels)) body (slotHeard slot (slotData levels) s)) := by
  have reads : readsNotices s = true := by simp [readsNotices, synced]
  have ended : endNotice slot levels s =
      slotEndSynced (slotData levels) (putTimer (noticeLastBit slot.val) s) := by
    simp [endNotice, reads, whole, noticeBitTimes, synced]
  have listens := slotEndSynced_listens (slotData levels) (s := putTimer (noticeLastBit slot.val) s) idle
  rw [exec_running _ running, effect, ended, listens, classAfterSlot_good good]
  exact congrArg _ (receiveSlot_good (s := slotHeard slot (slotData levels) s) other good)

/-! ## Sightings (R29 to R31) -/

/-- A sighting of a tracked item (R31). -/
theorem takeSighting_tracked (l : LaneSide) (e : Sighting) {s : State} (tracked : ∃ x ∈ s.track.table, x.item = e.item) :
    takeSighting l e s =
      updTrack e.item (putPeerStrength l { strength := e.best, coil := e.coil, received := s.line.round }) s := by
  have found : (findTrack s e.item).isSome = true := by simpa [findTrack] using tracked
  simp only [takeSighting, found, if_true]
  rfl

/-- A sighting of a cached item (R31). -/
theorem takeSighting_cached (l : LaneSide) (e : Sighting) {s : State} (untracked : ∀ x ∈ s.track.table, x.item ≠ e.item)
    (cached : ∃ c ∈ s.track.cache, c.item = e.item) :
    takeSighting l e s =
      s.onTrack fun u =>
        { u with
          cache := u.cache.map fun c =>
            if c.item = e.item then putPart l { strength := e.best, coil := e.coil, received := s.line.round } c else c } := by
  have missing : (findTrack s e.item).isSome = false := by simpa [findTrack] using untracked
  have held : (s.track.cache.any fun c => c.item = e.item) = true := by simpa using cached
  simp only [takeSighting, missing, Bool.false_eq_true, if_false, State.onTrack, held, if_true]
  rfl

/-- A sighting of an item neither tracked nor cached (R29, R31). -/
theorem takeSighting_new (l : LaneSide) (e : Sighting) {s : State} (untracked : ∀ x ∈ s.track.table, x.item ≠ e.item)
    (uncached : ∀ c ∈ s.track.cache, c.item ≠ e.item) :
    takeSighting l e s =
      s.onTrack fun u =>
        { u with
          cache := (if u.cache.length < 32 then u.cache else u.cache.tail) ++
            [putPart l { strength := e.best, coil := e.coil, received := s.line.round }
              { item := e.item, left := none, right := none }] } := by
  have missing : (findTrack s e.item).isSome = false := by simpa [findTrack] using untracked
  have absent : (s.track.cache.any fun c => c.item = e.item) = false := by simpa using uncached
  simp only [takeSighting, missing, Bool.false_eq_true, if_false, State.onTrack, absent]
  rfl

/-- One sighting from a station: of the left or the right neighbour, or ignored (R31, R119). -/
theorem takeSightings_one (station : Fin 16) (e : Sighting) (s : State) :
    (station.val + 1 = s.station → takeSightings station [e] s = takeSighting .left e s) ∧
      (station.val = s.station + 1 → takeSightings station [e] s = takeSighting .right e s) ∧
      (station.val + 1 ≠ s.station → station.val ≠ s.station + 1 → takeSightings station [e] s = s) := by
  refine ⟨fun left => ?_, fun right => ?_, fun notLeft notRight => ?_⟩
  · simp [takeSightings, left]
  · have notLeft : ¬station.val + 1 = s.station := by omega
    rw [takeSightings, if_neg notLeft, if_pos right]
    rfl
  · simp only [takeSightings, notLeft, notRight, if_false]

/-! ## Verdicts (R74, R75) -/

/-- A received lane number is that of an own lane (R74). -/
theorem namesOwnLane_iff (s : State) (lane : Nat) :
    namesOwnLane s lane = true ↔
      lane ≠ 15 ∧
        (lane = s.supply.straps.station.val ∧ s.supply.straps.isEnd = false ∨ lane + 1 = s.supply.straps.station.val) := by
  have left : hasLeft s = true ↔ s.supply.straps.station.val ≠ 0 := decide_eq_true_iff
  have right : hasRight s = true ↔ s.supply.straps.isEnd = false := by simp [hasRight]
  simp only [namesOwnLane, Bool.and_eq_true, Bool.or_eq_true, decide_eq_true_eq, left, right]
  simp only [laneNumber, State.station]
  refine and_congr_right fun _ => ⟨?_, ?_⟩
  · rintro (⟨notFirst, below⟩ | ⟨notEnd, own⟩)
    · exact .inr (by omega)
    · exact .inl ⟨own, notEnd⟩
  · rintro (⟨own, notEnd⟩ | below)
    · exact .inr ⟨notEnd, own⟩
    · exact .inl ⟨by omega, by omega⟩

/-- One entry of a VERDICT notice: the peer-alarm of a value 1 for an own lane, and the report while row_reports is on. -/
theorem takeVerdicts_one (station : Fin 16) (e : VerdictEntry) (s : State) :
    takeVerdicts station [e] s =
      { takeVerdictEntry e s with
        host :=
          if s.host.params.rowReports then
            recorded s.line.round (.PEER_VERDICT station e.item e.lane e.verdict) s.host
          else s.host } := by
  obtain ⟨line, host⟩ : (takeVerdictEntry e s).line = s.line ∧ (takeVerdictEntry e s).host = s.host := by simp
  simp only [takeVerdicts, List.foldl_cons, List.foldl_nil]
  by_cases on : s.host.params.rowReports = true
  · rw [if_pos (show s.params.rowReports = true from on), if_pos on, makeRecord_eq, host, line]
  · rw [if_neg (show ¬s.params.rowReports = true from on), if_neg on, ← host]

/-! ## Excuses (R76 to R79) -/

theorem applyExcuse_zero (item : ItemCode) (s : State) : applyExcuse item 0 s = removeExcuse item s := rfl

/-- A refresh (R77). -/
theorem addExcuse_held {item : ItemCode} (life : Nat) {s : State} (held : ∃ x ∈ s.verdict.excuses, x.item = item) :
    addExcuse item life s =
      s.onVerdict fun v =>
        { v with excuses := v.excuses.map fun x => if x.item = item then { item := item, life := life } else x } := by
  have listed : (s.verdict.excuses.any fun x => x.item = item) = true := by simpa using held
  have entry : ∀ x : ExcuseEntry, (if x.item = item then { x with life := life } else x) =
      if x.item = item then { item := item, life := life } else x := fun x => by
    split
    · rename_i same
      rw [same]
    · rfl
  simp only [addExcuse, State.onVerdict, listed, if_true, entry]

/-- An add of an item not held (R77, R78). -/
theorem addExcuse_new {item : ItemCode} (life : Nat) {s : State} (absent : ∀ x ∈ s.verdict.excuses, x.item ≠ item) :
    addExcuse item life s =
      s.onVerdict fun v =>
        { v with
          excuses :=
            (if v.excuses.length < 64 then v.excuses else dropSoonest v.excuses) ++ [{ item := item, life := life }] } := by
  have unlisted : (s.verdict.excuses.any fun x => x.item = item) = false := by simpa using absent
  by_cases room : s.verdict.excuses.length < 64 <;>
    simp only [addExcuse, State.onVerdict, unlisted, Bool.false_eq_true, if_false, Config.excuseCapacity, room, if_true]

/-- An entry that expires before every other goes first (R76). -/
theorem insertByLife_first {x : ExcuseEntry} {l : List ExcuseEntry} (sooner : ∀ y ∈ l, x.life < y.life) :
    (insertByLife x l).head? = some x := by
  cases l with
  | nil => rfl
  | cons y ys =>
    have later : ¬y.life ≤ x.life := Nat.not_le.mpr (sooner y List.mem_cons_self)
    simp [insertByLife, later]

/-- An entry that expires no sooner than the first leaves it first: among equals the earliest added goes first (R76). -/
theorem insertByLife_head {x e : ExcuseEntry} {l : List ExcuseEntry} (first : l.head? = some x) (noSooner : x.life ≤ e.life) :
    (insertByLife e l).head? = some x := by
  cases l with
  | nil => simp at first
  | cons y ys =>
    obtain rfl : y = x := by simpa using first
    simp [insertByLife, noSooner]

theorem insertByLife_fold {x : ExcuseEntry} {l rest : List ExcuseEntry} (first : l.head? = some x)
    (noSooner : ∀ y ∈ rest, x.life ≤ y.life) : (rest.foldl (fun l e => insertByLife e l) l).head? = some x := by
  induction rest generalizing l with
  | nil => exact first
  | cons e es ih =>
    exact ih (insertByLife_head first (noSooner e List.mem_cons_self)) fun y mem => noSooner y (List.mem_cons_of_mem e mem)

/-- The first of the order of R76: the entry that expires soonest, the earliest added among equals. -/
theorem excuseOrder_first {before rest : List ExcuseEntry} {x : ExcuseEntry} (sooner : ∀ y ∈ before, x.life < y.life)
    (noSooner : ∀ y ∈ rest, x.life ≤ y.life) : (excuseOrder (before ++ x :: rest)).head? = some x := by
  have placed : (insertByLife x (excuseOrder before)).head? = some x :=
    insertByLife_first fun y mem => sooner y ((excuseOrder_perm before).mem_iff.mp mem)
  rw [excuseOrder, List.foldl_append, List.foldl_cons, ← excuseOrder]
  exact insertByLife_fold placed noSooner

/-- The entry that gives way in a full list (R78). -/
theorem dropSoonest_split {before rest : List ExcuseEntry} {x : ExcuseEntry}
    (once : ((before ++ x :: rest).map ExcuseEntry.item).Nodup) (sooner : ∀ y ∈ before, x.life < y.life)
    (noSooner : ∀ y ∈ rest, x.life ≤ y.life) : dropSoonest (before ++ x :: rest) = before ++ rest := by
  have other : ∀ y ∈ before, ¬(decide (y.item = x.item)) = true := fun y mem => by
    rw [List.map_append, List.nodup_append] at once
    simpa using once.2.2 _ (List.mem_map_of_mem mem) x.item (by simp)
  have first := excuseOrder_first sooner noSooner
  unfold dropSoonest
  split
  · rename_i empty
    simp [empty] at first
  · rename_i y ys order
    obtain rfl : y = x := by simpa [order] using first
    rw [List.eraseP_append_right _ other]
    simp

/-! ## The statement -/

/-- Settles O33. -/
theorem receivedNoticeActs : Obligations.ReceivedNoticeActs := by
  unfold Obligations.ReceivedNoticeActs
  intro slot levels s running whole idle synced bits other station heard leaves change
  have dispatched : ∀ body t, noticeBody bits = some body → dispatchNotice (noticeStation bits) body heard = t → leaves t :=
    fun body t good becomes =>
      (noticeSlotEnd_good slot running whole idle synced other good).trans (congrArg _ becomes)
  refine ⟨fun e good => ?_, fun e good => ?_, fun e good => ?_⟩
  · intro left right p cached room
    obtain ⟨fromLeft, fromRight, ignored⟩ := takeSightings_one (noticeStation bits) e heard
    refine ⟨fun notLeft notRight => dispatched _ _ good (ignored notLeft notRight), fun tracked => ?_, fun untracked held => ?_,
      fun untracked absent => ?_⟩
    · have updates := fun l => takeSighting_tracked l e (s := heard) tracked
      exact ⟨fun isLeft => dispatched _ _ good ((fromLeft isLeft).trans (updates .left)),
        fun isRight => dispatched _ _ good ((fromRight isRight).trans (updates .right))⟩
    · have updates := fun l => takeSighting_cached l e (s := heard) untracked held
      exact ⟨fun isLeft => dispatched _ _ good ((fromLeft isLeft).trans (updates .left)),
        fun isRight => dispatched _ _ good ((fromRight isRight).trans (updates .right))⟩
    · have enters := fun l => takeSighting_new l e (s := heard) untracked absent
      exact ⟨fun isLeft => dispatched _ _ good ((fromLeft isLeft).trans (enters .left)),
        fun isRight => dispatched _ _ good ((fromRight isRight).trans (enters .right))⟩
  · intro own reported
    have named := namesOwnLane_iff heard e.lane.toNat
    have taken := takeVerdicts_one (noticeStation bits) e heard
    refine ⟨fun alarm isOwn => dispatched _ _ good (taken.trans ?_), fun none => dispatched _ _ good (taken.trans ?_)⟩
    · have acts : (e.verdict = 1 && namesOwnLane heard e.lane.toNat) = true := by
        rw [named.mpr isOwn, decide_eq_true alarm, Bool.and_self]
      simp only [takeVerdictEntry, acts, if_true]
      rfl
    · have silent : ¬(e.verdict = 1 && namesOwnLane heard e.lane.toNat) = true := by
        rw [Bool.and_eq_true, decide_eq_true_eq, named]
        exact fun ⟨alarm, isOwn⟩ => none.elim (absurd alarm) (absurd isOwn)
      simp only [takeVerdictEntry, silent]
      rfl
  · intro list entry excuses
    have applied : ∀ t, applyExcuse e.item e.life.toNat heard = t → leaves t := fun t becomes => dispatched _ t good becomes
    have adds : e.life ≠ 0 → applyExcuse e.item e.life.toNat heard = addExcuse e.item e.life.toNat heard := by
      intro some_life
      have positive : ¬e.life.toNat = 0 := fun zero => some_life (BitVec.eq_of_toNat_eq zero)
      rw [applyExcuse, if_neg positive]
    refine ⟨fun zero => applied _ ?_, fun some_life held => applied _ ?_, fun some_life absent room => applied _ ?_,
      fun before rest x some_life absent full once parted sooner noSooner => applied _ ?_⟩
    · rw [zero]
      rfl
    · exact (adds some_life).trans (addExcuse_held _ (s := heard) held)
    · rw [adds some_life, addExcuse_new _ (s := heard) absent]
      have fits : heard.verdict.excuses.length < 64 := room
      simp only [State.onVerdict, fits, if_true]
      rfl
    · rw [adds some_life, addExcuse_new _ (s := heard) absent]
      have parts : heard.verdict.excuses = before ++ x :: rest := parted
      have noRoom : ¬(before ++ x :: rest).length < 64 := by rw [← parted]; exact (Nat.lt_irrefl _ <| full ▸ ·)
      have dropped := dropSoonest_split (parted ▸ once) sooner noSooner
      simp only [State.onVerdict, parts, noRoom, if_false, dropped]
      rfl

end Sys2Proof.Machine
end

section
/-! PROOFS. The commands that read, and the fields of a track summary (O56). -/

namespace Sys2Proof.Machine

/-! ## Numbers and their bits (00, 0.5) -/

@[simp] theorem bitsOf_length {w : Nat} (x : BitVec w) : (bitsOf x).length = w := by simp [bitsOf]

@[simp] theorem fieldBits_length (w n : Nat) : (fieldBits w n).length = w := by simp [fieldBits]

theorem natOfBits_concat (bits : List Bool) (b : Bool) : natOfBits (bits ++ [b]) = 2 * natOfBits bits + b.toNat := by
  simp [natOfBits]

/-- The first bits of a word spell its upper part. -/
theorem natOfBits_upper {w : Nat} (x : BitVec w) (k : Nat) (within : k ≤ w) :
    natOfBits ((List.range k).map fun i => x.getMsbD i) = x.toNat / 2 ^ (w - k) := by
  induction k with
  | zero => simp [natOfBits, Nat.div_eq_of_lt x.isLt]
  | succ k ih =>
    have bit : (x.getMsbD k).toNat = x.toNat / 2 ^ (w - (k + 1)) % 2 := by
      have place : w - 1 - k = w - (k + 1) := by omega
      rw [BitVec.getMsbD, decide_eq_true (show k < w from within), Bool.true_and, place, BitVec.getLsbD, Nat.toNat_testBit]
    have halved : x.toNat / 2 ^ (w - k) = x.toNat / 2 ^ (w - (k + 1)) / 2 := by
      have next : w - k = w - (k + 1) + 1 := by omega
      rw [next, Nat.pow_succ, Nat.div_div_eq_div_mul]
    rw [List.range_succ, List.map_append, List.map_singleton, natOfBits_concat, ih (by omega), bit, halved]
    omega

@[simp] theorem natOfBits_bitsOf {w : Nat} (x : BitVec w) : natOfBits (bitsOf x) = x.toNat := by
  rw [bitsOf, natOfBits_upper x w (Nat.le_refl w)]
  simp

theorem natOfBits_fieldBits {w n : Nat} (fits : n < 2 ^ w) : natOfBits (fieldBits w n) = n := by
  rw [fieldBits, natOfBits_bitsOf, BitVec.toNat_ofNat, Nat.mod_eq_of_lt fits]

/-! ## Fields of a bit string -/

/-- The field that follows what stands before it. -/
theorem bitSlice_part {before part after : List Bool} {start length : Nat} (starts : before.length = start)
    (long : part.length = length) : bitSlice start length (before ++ (part ++ after)) = part := by
  subst starts long
  rw [bitSlice, List.drop_left, List.take_left]

/-- A field of a field. -/
theorem bitSlice_bitSlice {start length first count : Nat} (inside : first + count ≤ length) (bits : List Bool) :
    bitSlice (start + first) count bits = bitSlice first count (bitSlice start length bits) := by
  simp only [bitSlice, List.drop_take, List.take_take, List.drop_drop]
  congr 1
  omega

/-- The fields of a bit string in turn: field `k` of a list of fields. -/
theorem bitSlice_flatten (parts : List (List Bool)) (k : Nat) (inside : k < parts.length) :
    bitSlice ((parts.take k).flatten.length) (parts[k].length) parts.flatten = parts[k] := by
  have split : parts.flatten = (parts.take k).flatten ++ (parts[k] ++ (parts.drop (k + 1)).flatten) := by
    rw [← List.flatten_cons, ← List.flatten_append, ← List.drop_eq_getElem_cons inside, List.take_append_drop]
  rw [split]
  exact bitSlice_part rfl rfl

/-! ## Track summaries (R39, R201) -/

/-- The fields of a track summary in sending order (R201). -/
def summaryFields (now : Round) (x : Track) : List (List Bool) :=
  [bitsOf x.item, bitsOf x.loan, bitsOf x.reads, fieldBits 8 (min 250 (roundsSince now x.lastRead)),
    fieldBits 9 (min 511 (roundsSince x.lastRead x.firstRound)), fieldBits 9 (x.sH.getD 0), fieldBits 9 (x.sS.getD 0),
    fieldBits 3 (startSideCode x.startSide), fieldBits 2 (phaseCode x.phase), fieldBits 2 (sideCode x.side),
    fieldBits 2 (verdictCode (x.verdict.map VerdictRecord.outcome)), fieldBits 4 (x.peerAlarm.getD 15),
    peerStrengthBits now x.pL, peerStrengthBits now x.pR]

theorem summaryBits_fields (now : Round) (x : Track) : summaryBits now x = (summaryFields now x).flatten := by
  simp [summaryBits, summaryFields]

@[simp] theorem peerStrengthBits_length (now : Round) (p : Option PeerStrength) : (peerStrengthBits now p).length = 15 := by
  cases p <;> simp [peerStrengthBits]

/-- The widths of the fields of a track summary (R201). -/
theorem summaryFields_widths (now : Round) (x : Track) :
    (summaryFields now x).map List.length = [64, 8, 8, 8, 9, 9, 9, 3, 2, 2, 2, 4, 15, 15] := by
  simp [summaryFields]

/-- Field `k` of a track summary stands after the fields before it. -/
theorem summaryBits_slice (now : Round) (x : Track) {k start width : Nat} {bits : List Bool}
    (named : (summaryFields now x)[k]? = some bits)
    (starts : (([64, 8, 8, 8, 9, 9, 9, 3, 2, 2, 2, 4, 15, 15] : List Nat).take k).sum = start) (long : bits.length = width) :
    bitSlice start width (summaryBits now x) = bits := by
  obtain ⟨inside, rfl⟩ := List.getElem?_eq_some_iff.mp named
  have before : ((summaryFields now x).take k).flatten.length = start := by
    rw [List.length_flatten, List.map_take, summaryFields_widths, starts]
  rw [summaryBits_fields, ← before, ← long]
  exact bitSlice_flatten _ k inside

/-- The fields of a peer strength in a track summary (R201). -/
theorem peerStrengthBits_some (now : Round) (p : PeerStrength) :
    natOfBits (bitSlice 0 1 (peerStrengthBits now (some p))) = 1 ∧
      natOfBits (bitSlice 1 7 (peerStrengthBits now (some p))) = p.strength.toNat ∧
      (natOfBits (bitSlice 8 1 (peerStrengthBits now (some p))) = 1 ↔ p.coil = .S) ∧
      natOfBits (bitSlice 9 6 (peerStrengthBits now (some p))) = min 63 (roundsSince now p.received) := by
  have slice := bitSlice_flatten
    [[true], bitsOf p.strength, [coilBit p.coil], fieldBits 6 (min 63 (roundsSince now p.received))]
  have bits : [[true], bitsOf p.strength, [coilBit p.coil], fieldBits 6 (min 63 (roundsSince now p.received))].flatten =
      peerStrengthBits now (some p) := by
    simp [peerStrengthBits]
  rw [bits] at slice
  have present := slice 0 (by simp)
  have strength := slice 1 (by simp)
  have coil := slice 2 (by simp)
  have age := slice 3 (by simp)
  simp at present strength coil age
  rw [present, strength, coil, age]
  refine ⟨rfl, natOfBits_bitsOf _, ?_, natOfBits_fieldBits (by omega)⟩
  cases p.coil <;> decide

/-- What the 15 bits of a track summary from bit `start` on say of a peer strength (R201). -/
def peerRead (now : Round) (x : Track) (start : Nat) : Option PeerStrength → Prop
  | none => natOfBits (bitSlice start 15 (summaryBits now x)) = 0
  | some p =>
    natOfBits (bitSlice start 1 (summaryBits now x)) = 1 ∧
      natOfBits (bitSlice (start + 1) 7 (summaryBits now x)) = p.strength.toNat ∧
      (natOfBits (bitSlice (start + 8) 1 (summaryBits now x)) = 1 ↔ p.coil = .S) ∧
      natOfBits (bitSlice (start + 9) 6 (summaryBits now x)) = min 63 (now - p.received).toNat

theorem peerRead_slice (now : Round) (x : Track) {start : Nat} {p : Option PeerStrength}
    (slice : bitSlice start 15 (summaryBits now x) = peerStrengthBits now p) : peerRead now x start p := by
  cases p with
  | none =>
    rw [peerRead, slice]
    rfl
  | some p =>
    have inner : ∀ first count, first + count ≤ 15 →
        bitSlice (start + first) count (summaryBits now x) = bitSlice first count (peerStrengthBits now (some p)) :=
      fun first count inside => by rw [← slice, ← bitSlice_bitSlice inside]
    have first := inner 0 1 (by decide)
    rw [Nat.add_zero] at first
    simp only [peerRead, first, inner 1 7 (by decide), inner 8 1 (by decide), inner 9 6 (by decide)]
    exact peerStrengthBits_some now p

/-- The track summary of R201, field by field. -/
theorem summaryBits_read (now : Round) (x : Track) :
    (summaryBits now x).length = 158 ∧
      bitSlice 0 64 (summaryBits now x) = bitsOf x.item ∧ bitSlice 64 8 (summaryBits now x) = bitsOf x.loan ∧
      bitSlice 72 8 (summaryBits now x) = bitsOf x.reads ∧
      bitSlice 80 8 (summaryBits now x) = fieldBits 8 (min 250 (roundsSince now x.lastRead)) ∧
      bitSlice 88 9 (summaryBits now x) = fieldBits 9 (min 511 (roundsSince x.lastRead x.firstRound)) ∧
      bitSlice 97 9 (summaryBits now x) = fieldBits 9 (x.sH.getD 0) ∧
      bitSlice 106 9 (summaryBits now x) = fieldBits 9 (x.sS.getD 0) ∧
      bitSlice 115 3 (summaryBits now x) = fieldBits 3 (startSideCode x.startSide) ∧
      bitSlice 118 2 (summaryBits now x) = fieldBits 2 (phaseCode x.phase) ∧
      bitSlice 120 2 (summaryBits now x) = fieldBits 2 (sideCode x.side) ∧
      bitSlice 122 2 (summaryBits now x) = fieldBits 2 (verdictCode (x.verdict.map VerdictRecord.outcome)) ∧
      bitSlice 124 4 (summaryBits now x) = fieldBits 4 (x.peerAlarm.getD 15) ∧
      bitSlice 128 15 (summaryBits now x) = peerStrengthBits now x.pL ∧
      bitSlice 143 15 (summaryBits now x) = peerStrengthBits now x.pR := by
  refine ⟨by simp [summaryBits], summaryBits_slice now x (k := 0) rfl rfl ?_, summaryBits_slice now x (k := 1) rfl rfl ?_,
    summaryBits_slice now x (k := 2) rfl rfl ?_, summaryBits_slice now x (k := 3) rfl rfl ?_,
    summaryBits_slice now x (k := 4) rfl rfl ?_, summaryBits_slice now x (k := 5) rfl rfl ?_,
    summaryBits_slice now x (k := 6) rfl rfl ?_, summaryBits_slice now x (k := 7) rfl rfl ?_,
    summaryBits_slice now x (k := 8) rfl rfl ?_, summaryBits_slice now x (k := 9) rfl rfl ?_,
    summaryBits_slice now x (k := 10) rfl rfl ?_, summaryBits_slice now x (k := 11) rfl rfl ?_,
    summaryBits_slice now x (k := 12) rfl rfl ?_, summaryBits_slice now x (k := 13) rfl rfl ?_⟩ <;> simp

/-! ## Commands that change nothing (R176) -/

/-- The part when a command's response is claimed, before the command acts (R175). -/
def claimed (f : Frame) (s : State) : State := claimResponse f (frameReceived f s)

/-- A command of its own length that reads alone: its answer is sent, and the part stays as it is. -/
theorem commandFrame_reads {code : Byte} {length : Nat} {payload : List Byte} {act : State → Taken} {s : State} {a : Answer}
    (taken : takesCommand s) (own : payload.length = length) (short : length ≤ 120)
    (reads : act (claimed { code := code, payload := payload } s) =
      { state := claimed { code := code, payload := payload } s, answer := a }) :
    commandFrame code length payload act s =
      { s with
        host := answered { code := code, payload := payload } { frame := answerFrame code a, reset := none } s.host } := by
  obtain ⟨-, awake, free⟩ := taken
  rw [commandFrame, takeFrame_taken _ _ s (own ▸ short) awake free, ← claimed, takeCommand, if_neg (not_not.mpr own), reads]
  rfl

theorem beBytes_two (n : Nat) : beBytes 2 n = [BitVec.ofNat 8 (n / 256), BitVec.ofNat 8 n] := by
  simp [beBytes, List.range_succ]

theorem beBytes_three (n : Nat) :
    beBytes 3 n = [BitVec.ofNat 8 (n / 65536), BitVec.ofNat 8 (n / 256), BitVec.ofNat 8 n] := by
  simp [beBytes, List.range_succ]

theorem strapsByte_eq (u : Straps) :
    strapsByte u = BitVec.ofNat 8 (16 * u.station.val + (if u.isEnd then 2 else 0) + (if u.reach = 2 then 1 else 0)) := by
  cases h : u.isEnd <;> simp [strapsByte, h]

theorem coilsByte_eq (s : State) :
    coilsByte s = (if s.field.coilH = .OK then 0 else 2) + (if s.field.coilS = .OK then 0 else 1) := by
  by_cases h : s.field.coilH = .OK <;> by_cases h' : s.field.coilS = .OK <;>
    simp [coilsByte, coilFault, coilState, h, h']

theorem laneBytes_eq (s : State) :
    laneBytes s =
      [if decide (s.supply.straps.station.val ≠ 0) then laneStateByte s.lanes.left else 0xFF,
        if decide (s.supply.straps.isEnd = false) then laneStateByte s.lanes.right else 0xFF] := by
  simp [laneBytes, hasLane, hasLeft, hasRight, laneState, State.station]

theorem peerBytes_eq (s : State) :
    peerBytes s =
      [if decide (s.supply.straps.station.val ≠ 0) then peerCodeByte s.line.peerLeft.confirmed else 0xFF,
        if decide (s.supply.straps.isEnd = false) then peerCodeByte s.line.peerRight.confirmed else 0xFF] := by
  simp [peerBytes, hasLane, hasLeft, hasRight, peerRecord, State.station]

theorem cadenceByte_eq (c : Cadence) : cadenceByte c = if c = .CALM then 1 else 0 := by
  cases c <;> rfl

theorem streamingByte_eq (b : Bool) : BitVec.ofNat 8 b.toNat = if b then 1 else 0 := by
  cases b <;> rfl

theorem errorBytes_eq (e : ErrorCounts) :
    errorBytes e =
      [BitVec.ofNat 8 (e.lineErrors.toNat / 256), BitVec.ofNat 8 e.lineErrors.toNat] ++
        [BitVec.ofNat 8 (e.noticeCrc.toNat / 256), BitVec.ofNat 8 e.noticeCrc.toNat] ++
        [BitVec.ofNat 8 (e.evictions.toNat / 256), BitVec.ofNat 8 e.evictions.toNat] ++
        [BitVec.ofNat 8 (e.outboxDrops.toNat / 256), BitVec.ofNat 8 e.outboxDrops.toNat] ++
        [BitVec.ofNat 8 (e.reportLosses.toNat / 256), BitVec.ofNat 8 e.reportLosses.toNat] ++
        [BitVec.ofNat 8 (e.hostFrames.toNat / 256), BitVec.ofNat 8 e.hostFrames.toNat] := by
  simp [errorBytes, beBytes_two]

theorem countBytes_eq (c : LaneCounts) :
    countBytes c =
      beBytes 3 c.beamExits.toNat ++ beBytes 3 c.beamEntries.toNat ++ beBytes 3 c.tagAlarms.toNat ++ beBytes 3 c.tagPasses.toNat ++
        beBytes 3 c.tagEntries.toNat := by
  simp [countBytes]

/-- Settles O56: each field of a summary is the slice at its own place (`summaryBits_read`), and a command that reads leaves the
part as it is when its response is claimed (`commandFrame_reads`). -/
theorem readCommandsAnswer : Obligations.ReadCommandsAnswer := by
  unfold Obligations.ReadCommandsAnswer
  refine ⟨fun now x => ?_, fun i id s taken awakeLine => ?_⟩
  · intro field age peer
    obtain ⟨length, item, loan, reads, lastRead, dwell, sH, sS, startSide, phase, side, verdict, peerAlarm, left, right⟩ :=
      summaryBits_read now x
    simp only [field, item, loan, reads, lastRead, dwell, sH, sS, startSide, phase, side, verdict, peerAlarm, natOfBits_bitsOf]
    refine ⟨length, trivial, trivial, trivial, natOfBits_fieldBits (by omega), natOfBits_fieldBits (by omega), ?_, ?_, ?_, ?_, ?_, ?_,
      ?_, ?_, ?_, ?_⟩
    · rintro q rfl fits
      exact natOfBits_fieldBits fits
    · rintro q rfl fits
      exact natOfBits_fieldBits fits
    · cases x.startSide <;> rfl
    · cases x.phase <;> rfl
    · cases x.side <;> rfl
    · cases x.verdict with
      | none => rfl
      | some v => cases outcome : v.outcome <;> simp only [Option.map_some, outcome] <;> rfl
    · intro none
      rw [none]
      rfl
    · intro l some_lane fits
      rw [some_lane]
      exact natOfBits_fieldBits fits
    · exact peerRead_slice now x left
    · exact peerRead_slice now x right
  · intro answers straps lane peer two three counts
    have reads : ∀ {c : Instr} {code : Byte} {length : Nat} {payload : List Byte} {act : State → Taken} {a : Answer}
        {r : Frame}, effect c = commandFrame code length payload act → payload.length = length → length ≤ 120 →
        act (claimed { code := code, payload := payload } s) =
          { state := claimed { code := code, payload := payload } s, answer := a } →
        answerFrame code a = r → answers c { code := code, payload := payload } r := by
      intro c code length payload act a r acts own short reading made
      rw [← made]
      exact (exec_running c taken.1).trans (congrArg _ ((congrFun acts s).trans (commandFrame_reads taken own short reading)))
    have laneByte : ∀ has m, (if has then laneStateByte m else 0xFF) = lane has m := by
      intro has m
      cases m <;> rfl
    have peerByte : ∀ has p, (if has then peerCodeByte p else 0xFF) = peer has p := by
      intro has p
      cases p <;> rfl
    refine ⟨?_, ?_, ?_, ?_, ?_, ?_, ?_⟩
    · refine reads (a := (actIdentify s).answer) rfl rfl (by decide) rfl ?_
      rw [actIdentify, strapsByte_eq]
      cases s.supply.cause <;> rfl
    · refine reads (a := (actStatus s).answer) rfl rfl (by decide) rfl ?_
      rw [actStatus, coilsByte_eq, laneBytes_eq, peerBytes_eq, cadenceByte_eq, streamingByte_eq, laneByte, laneByte, peerByte,
        peerByte, errorBytes_eq]
      cases state : s.line.state with
      | SILENT => exact absurd state awakeLine
      | LISTEN | SYNCED | LONE | CLASHED => rfl
    · refine reads rfl rfl (by decide) rfl ?_
      rw [List.flatMap_def]
      rfl
    · intro notEnd
      have right : hasRight s = true := congrArg not notEnd
      refine reads (a := .DONE (countBytes s.beams.counts)) rfl rfl (by decide) (if_pos right) ?_
      simp only [countBytes_eq, beBytes_three]
      rfl
    · intro isEnd
      have noRight : ¬ hasRight s = true := Bool.eq_false_iff.mp (congrArg not isEnd)
      exact reads (a := .REFUSED .NO_LANE) rfl rfl (by decide) (if_neg noRight) rfl
    · intro v held
      have data : paramData s.host.params id = .DONE (id :: beBytes 2 v) := by rw [paramData, held]
      refine reads (a := paramData s.host.params id) rfl rfl (by decide) rfl ?_
      rw [data, beBytes_two]
      rfl
    · exact reads rfl rfl (by decide) rfl rfl

end Sys2Proof.Machine
end

section
/-! PROOFS. The sampling event of the beams and its hand-over (O48). -/

namespace Sys2Proof.Machine

/-! ## The filters and the footfall machine (R165 to R169) -/

theorem breaks_iff (before after : BeamFilter) :
    breaks before after = true ↔ after.confirmed = .BROKEN ∧ before.confirmed = .CLEAR := by
  simp [breaks, and_comm]

theorem breaks_unchanged {before after : BeamFilter} (same : after.confirmed = before.confirmed) :
    breaks before after = false := by
  cases confirmed : before.confirmed <;> simp [breaks, same, confirmed]

/-- The beam unit after a sampling event: the filters take the samples, and the footfall machine and the lane counts follow a
change of a confirmed state (R165, R167, R169). -/
def sampledBeams (hall street : Beam) (b : BeamUnit) : BeamUnit :=
  let h := filterBeam hall b.hall
  let t := filterBeam street b.street
  if h.confirmed ≠ b.hall.confirmed ∨ t.confirmed ≠ b.street.confirmed then
    let after := footfallMove h.confirmed t.confirmed b.footfall
    { hall := h, street := t, footfall := after, counts := countMove b.footfall after b.counts }
  else { b with hall := h, street := t }

/-- Whether a sampling event breaks a beam (R166). -/
def sampleBreaks (hall street : Beam) (b : BeamUnit) : Bool :=
  breaks b.hall (filterBeam hall b.hall) || breaks b.street (filterBeam street b.street)

/-- A station without a right lane takes no sample; any other moves its beam unit, and hands a beam break on (R164 to R166). -/
theorem sampleBeams_eq (hall street : Beam) (s : State) :
    sampleBeams hall street s =
      if hasRight s then
        let sampled : State := { s with beams := sampledBeams hall street s.beams }
        if sampleBreaks hall street s.beams then beamBreak sampled else sampled
      else s := by
  unfold sampleBeams sampledBeams sampleBreaks
  split
  · by_cases same : (filterBeam hall s.beams.hall).confirmed = s.beams.hall.confirmed ∧
        (filterBeam street s.beams.street).confirmed = s.beams.street.confirmed
    · have noBreak : (breaks s.beams.hall (filterBeam hall s.beams.hall) ||
          breaks s.beams.street (filterBeam street s.beams.street)) = false := by
        rw [breaks_unchanged same.1, breaks_unchanged same.2, Bool.or_self]
      simp only [same, noBreak, and_self, ne_eq, not_true_eq_false, or_self, if_true, if_false, Bool.false_eq_true]
      rfl
    · have moved := not_and_or.mp same
      simp only [same, moved, ne_eq, if_true, if_false]
      rfl
  · rfl

/-! ## The hand-over of a beam break (R61, R132, R133, R191, R194) -/

theorem beamBreak_awake {s : State} (awake : s.supply.dormancy = .AWAKE) :
    beamBreak s =
      { s with
        track := { s.track with rightBroken := some s.line.round }
        access := { s.access with cadence := .BRISK, quietRounds := 0 }
        supply := { s.supply with dormantRounds := 0, quietMinutes := 0, pendingEntry := false } } := by
  simp [beamBreak, awake, dormantTimerZero, stirAccess, State.onTrack, State.onAccess, State.onSupply, State.now]

theorem beamBreak_silent {s : State} (dormant : s.supply.dormancy = .DORMANT) (silent : s.line.state = .SILENT) :
    beamBreak s = woken .BRISK { s with track := { s.track with rightBroken := some s.line.round } } := by
  have notClashed : (s.onTrack fun u => { u with rightBroken := some s.now }).line.state ≠ .CLASHED := by simp [silent]
  simp only [beamBreak, onTrack_supply, dormant, if_true, wake_eq .BRISK _ notClashed]
  rfl

/-! ## The statement -/

/-- Settles O48: the two commands make the same sampling event, which `sampleBeams_eq` says whole; a break is handed on by
`beamBreak`, AWAKE and from SILENT. -/
theorem beamSampleHandedOn : Obligations.BeamSampleHandedOn := by
  unfold Obligations.BeamSampleHandedOn
  intro c hall street s running named seen h t changed after broke beams track
  have sampling : exec c s = .next (sampleBeams hall street s) := by
    rw [exec_running c running]
    rcases named with rfl | rfl <;> rfl
  have unit : sampledBeams hall street s.beams = beams := by
    by_cases moved : changed
    · simp only [beams, after, if_pos moved]
      exact if_pos moved
    · simp only [beams, after, if_neg moved]
      exact if_neg moved
  have broken : sampleBreaks hall street s.beams = true ↔ broke := by
    rw [sampleBreaks, Bool.or_eq_true, breaks_iff, breaks_iff]
    rfl
  rw [sampling, sampleBeams_eq, unit]
  refine ⟨fun isEnd => ?_, fun notEnd whole => ?_, fun notEnd breach awake => ?_, fun notEnd breach dormant silent => ?_⟩
  · have noRight : ¬ hasRight s = true := by simp [hasRight, isEnd]
    rw [if_neg noRight]
  all_goals
    have right : hasRight s = true := by simp [hasRight, notEnd]
    simp only [if_pos right]
  · rw [if_neg (broken.not.mpr whole)]
  · rw [if_pos (broken.mpr breach), beamBreak_awake (by exact awake)]
  · rw [if_pos (broken.mpr breach), beamBreak_silent (by exact dormant) (by exact silent)]

end Sys2Proof.Machine
end

section
/-! PROOFS. The commands that store parameters and cadence entries (O57). -/

namespace Sys2Proof.Machine

/-! ## Parameters (R47, R178) -/

theorem clampNat_eq {lo hi : Nat} (ordered : lo ≤ hi) (x : Nat) : clampNat lo hi x = max lo (min hi x) := by
  unfold clampNat
  omega

/-- The range of each parameter, in the order of the ids; T_cross is held at T_side or above (R47, R178). -/
def paramRange (p : Params) (id : Nat) : Nat × Nat :=
  ([(0, 255), (0, 60), (1, 64), (8, 200), (p.tSide, 400), (2, 40), (40, 508), (5, 250), (2, 50), (50, 3000), (0, 15), (0, 255),
      (25, 3000), (0, 240), (0, 1)] : List (Nat × Nat)).getD (id - 1) (0, 0)

/-- The value as SET stores it: brought into the range of its parameter. -/
def storedValue (p : Params) (id v : Nat) : Nat := max (paramRange p id).1 (min (paramRange p id).2 v)

/-- The parameter that a SET names holds the value brought into its range. -/
theorem paramValue_storeParam_same {p : Params} {id : Nat} (v : Nat) (inRange : paramsInRange p) (first : 1 ≤ id)
    (last : id ≤ 15) : paramValue (storeParam p id v) id = some (storedValue p id v) := by
  obtain ⟨-, -, -, ⟨crossLeast, crossMost⟩, -⟩ := inRange
  have crossOrdered : p.tSide ≤ 400 := Nat.le_trans crossLeast crossMost
  have byte : clampNat 0 255 v % 256 = max 0 (min 255 v) := by
    unfold clampNat
    omega
  have flag : (decide (v ≠ 0)).toNat = max 0 (min 1 v) := by
    by_cases zero : v = 0
    · simp [zero]
    · simp only [zero, ne_eq, not_false_eq_true, decide_true, Bool.toNat_true]
      omega
  have clamped : ∀ {lo hi : Nat}, lo ≤ hi → some (clampNat lo hi v) = some (max lo (min hi v)) :=
    fun ordered => congrArg some (clampNat_eq ordered v)
  interval_cases id
  exacts [congrArg some byte, clamped (by decide), clamped (by decide), clamped (by decide), clamped crossOrdered,
    clamped (by decide), clamped (by decide), clamped (by decide), clamped (by decide), clamped (by decide),
    clamped (by decide), congrArg some byte, clamped (by decide), clamped (by decide), congrArg some flag]

/-- Every other parameter keeps its value, but T_cross, which T_side raises. -/
theorem paramValue_storeParam_other {p : Params} {id other : Nat} (v : Nat) (apart : other ≠ id) :
    paramValue (storeParam p id v) other =
      if id = 4 ∧ other = 5 then some (max (storedValue p id v) p.tCross) else paramValue p other := by
  by_cases raised : id = 4 ∧ other = 5
  · obtain ⟨rfl, rfl⟩ := raised
    exact congrArg (fun stored => some (max stored p.tCross)) (clampNat_eq (by decide) v)
  · rw [if_neg raised]
    unfold storeParam
    split
    all_goals
      unfold paramValue
      split
    any_goals exact absurd rfl apart
    any_goals exact absurd ⟨rfl, rfl⟩ raised
    all_goals rfl

theorem paramValue_known (p : Params) {id : Nat} (first : 1 ≤ id) (last : id ≤ 15) : (paramValue p id).isNone = false := by
  interval_cases id <;> rfl

/-! ## Commands that are taken (R175, R176) -/

/-- A command of its own length: it acts once its response is claimed, and its answer is sent. -/
theorem commandFrame_acts {code : Byte} {length : Nat} {payload : List Byte} {act : State → Taken} {s : State} {t : Taken}
    (taken : takesCommand s) (own : payload.length = length) (short : length ≤ 120)
    (acts : act (claimed { code := code, payload := payload } s) = t) :
    commandFrame code length payload act s = respond { frame := answerFrame code t.answer, reset := t.reset } t.state := by
  obtain ⟨-, awake, free⟩ := taken
  rw [commandFrame, takeFrame_taken _ _ s (own ▸ short) awake free, ← claimed, takeCommand, if_neg (not_not.mpr own), acts]

/-- SET of a parameter by its id: it is stored in range, and the answer carries the value stored (R178, R191). -/
theorem actSet_stores {id : Byte} {s : State} (v : Nat) (inRange : paramsInRange s.host.params) (first : 1 ≤ id.toNat)
    (last : id.toNat ≤ 15) :
    actSet id v s =
      { state :=
          { s with
            host := { s.host with params := storeParam s.host.params id.toNat v }
            supply := if id = 14 ∧ v = 0 then { s.supply with pendingEntry := false } else s.supply }
        answer := .DONE (id :: beBytes 2 (storedValue s.host.params id.toNat v)) } := by
  have known : ¬ (paramValue s.params id.toNat).isNone = true := by simp [paramValue_known s.params first last]
  have data : paramData (storeParam s.host.params id.toNat v) id =
      .DONE (id :: beBytes 2 (storedValue s.host.params id.toNat v)) := by
    rw [paramData, paramValue_storeParam_same v inRange first last]
  rw [actSet, if_neg known, ← data]
  by_cases unpends : id = 14 ∧ v = 0
  · simp [unpends, State.onHost, State.onSupply, State.params]
  · have kept : (decide (id = 14) && decide (v = 0)) = false := by simpa using unpends
    simp only [kept, if_neg unpends]
    rfl

/-! ## Cadence entries (R155, R156, R200) -/

theorem storedTone_eq (f : Nat) : storedTone f = if f = 0 then 0 else max 200 (min 4000 f) := by
  rw [storedTone, clampNat_eq (by decide)]

theorem storedLevel_none (level : Byte) : storedLevel level = none ↔ level = 0x80 := by
  simp [storedLevel]

/-- A level that is not REST is stored even, at most 30 dB below 0 and at the level given or the one next below (R156). -/
theorem storedLevel_some {level : Byte} {below : Nat} (stored : storedLevel level = some below) :
    below % 2 = 0 ∧ below ≤ 30 ∧ (0 ≤ level.toInt → below = 0) ∧ (level.toInt < -30 → below = 30) ∧
      (-30 ≤ level.toInt → level.toInt ≤ 0 → (below : Int) = -level.toInt ∨ (below : Int) = -level.toInt + 1) := by
  have sounds : level ≠ 0x80 := fun rest => by simp [(storedLevel_none level).mpr rest] at stored
  simp only [storedLevel, if_neg sounds, Option.some.injEq] at stored
  omega

/-- The entry that a CADENCE payload stores, each field in its range. -/
theorem payloadEntry_eq (index aHigh aLow bHigh bLow level duration : Byte) :
    payloadEntry [index, aHigh, aLow, bHigh, bLow, level, duration] =
      { toneA := storedTone (256 * aHigh.toNat + aLow.toNat)
        toneB := storedTone (256 * bHigh.toNat + bLow.toNat)
        level := storedLevel level
        duration := min 100 duration.toNat } := by
  simp [payloadEntry, payloadByte, natOfBytes]

/-! ## The statement -/

/-- Settles O57: a SET acts as `actSet_stores` says, on parameters of which `paramValue_storeParam_same` and
`paramValue_storeParam_other` say every value; a CADENCE stores the entry of `payloadEntry_eq`. -/
theorem valuesStoredInRange : Obligations.ValuesStoredInRange := by
  unfold Obligations.ValuesStoredInRange
  refine ⟨fun id high low s taken inRange first last => ?_, fun index aHigh aLow bHigh bLow level duration s taken => ?_⟩
  · intro value range stored
    have read : natOfBytes ([id, high, low].drop 1) = value := by simp [natOfBytes, value]
    refine ⟨storeParam s.host.params id.toNat value, ?_, paramValue_storeParam_same value inRange first last,
      fun other apart => ?_⟩
    · have own : [id, high, low].length = 3 := rfl
      have stores := actSet_stores (id := id) (s := claimed { code := 8, payload := [id, high, low] } s) value inRange first last
      rw [beBytes_two] at stores
      rw [exec_running _ taken.1, effect, read]
      exact congrArg _ (commandFrame_acts taken own (by decide) stores)
    · have four : id = 4 ↔ id.toNat = 4 := BitVec.toNat_inj.symm
      simp only [paramValue_storeParam_other value apart, four]
      rfl
  · intro payload tone e place
    have entry : payloadEntry payload = e := by
      simp only [payload, payloadEntry_eq, storedTone_eq]
      rfl
    have own : payload.length = 7 := rfl
    refine ⟨?_, storedLevel_none level, fun below => storedLevel_some⟩
    rw [exec_running _ taken.1, effect, commandFrame_acts taken own (by decide) rfl, actCadence, entry, cadenceBytes, beBytes_two,
      beBytes_two]
    rfl

end Sys2Proof.Machine
end

section
/-! PROOFS. The evaluations of a track, its side and the outcome of a verdict request (O43). -/

namespace Sys2Proof.Machine

/-! ## The start side and the phase (R46, R48) -/

/-- The start side that a first evaluation sets (R46). -/
theorem startSideOf_eq {tSide : Nat} (positive : 0 < tSide) (d : Int) :
    (d ≤ -(tSide : Int) → startSideOf tSide d = .HALL) ∧ ((tSide : Int) ≤ d → startSideOf tSide d = .STREET) ∧
      (-(tSide : Int) < d → d < tSide → startSideOf tSide d = .MIDDLE) := by
  unfold startSideOf
  refine ⟨fun hall => if_pos hall, fun street => ?_, fun aboveHall belowStreet => ?_⟩
  · rw [if_neg (by omega), if_pos street]
  · rw [if_neg (by omega), if_neg (by omega)]

/-- The rows of the phase table, one for each crossing (R48). -/
theorem phaseMove_rows {tCross : Nat} (positive : 0 < tCross) (start : StartSide) (d : Int) :
    ((tCross : Int) ≤ d → start ≠ .STREET → phaseMove tCross start d .OPEN = .OUT) ∧
      (d ≤ -(tCross : Int) → start ≠ .HALL → phaseMove tCross start d .OPEN = .IN) ∧
      ((tCross : Int) ≤ d → start = .STREET → phaseMove tCross start d .OPEN = .OPEN) ∧
      (d ≤ -(tCross : Int) → start = .HALL → phaseMove tCross start d .OPEN = .OPEN) ∧
      ((tCross : Int) ≤ d → phaseMove tCross start d .IN = .OUT) ∧
      (d ≤ -(tCross : Int) → phaseMove tCross start d .OUT = .BACK) ∧
      (d ≤ -(tCross : Int) → phaseMove tCross start d .IN = .IN) ∧
      ((tCross : Int) ≤ d → phaseMove tCross start d .OUT = .OUT) := by
  unfold phaseMove
  refine ⟨fun high other => if_pos ⟨high, other⟩, fun low other => ?_, fun high street => ?_, fun low hall => ?_,
    fun high => if_pos high, fun low => if_pos low, fun low => if_neg (by omega), fun high => if_neg (by omega)⟩
  · rw [if_neg (by omega), if_pos ⟨low, other⟩]
  · rw [if_neg (fun row => row.2 street), if_neg (by omega)]
  · rw [if_neg (by omega), if_neg (fun row => row.2 hall)]

/-- Between the two crossings no phase moves (R48). -/
theorem phaseMove_still {tCross : Nat} {d : Int} (start : StartSide) (p : Phase) (above : -(tCross : Int) < d)
    (below : d < tCross) : phaseMove tCross start d p = p := by
  have notHigh : ¬ (tCross : Int) ≤ d := by omega
  have notLow : ¬ d ≤ -(tCross : Int) := by omega
  cases p <;> simp [phaseMove, notHigh, notLow]

/-- An evaluation that sets the start side moves no OPEN track: at a crossing it sets the side crossed to (R46, R48). -/
theorem phaseMove_first {tSide tCross : Nat} (positive : 0 < tSide) (ordered : tSide ≤ tCross) (d : Int) :
    phaseMove tCross (startSideOf tSide d) d .OPEN = .OPEN := by
  obtain ⟨hall, street, -⟩ := startSideOf_eq positive d
  obtain ⟨-, -, highStreet, lowHall, -⟩ := phaseMove_rows (Nat.lt_of_lt_of_le positive ordered) (startSideOf tSide d) d
  by_cases high : (tCross : Int) ≤ d
  · exact highStreet high (street (by omega))
  · by_cases low : d ≤ -(tCross : Int)
    · exact lowHall low (hall (by omega))
    · exact phaseMove_still _ _ (by omega) (by omega)

/-! ## The two evaluations (R45, R51, R53, R54) -/

/-- The start side of a track after a two-coil evaluation (R46). -/
def startAfter (s : State) (x : Track) : StartSide :=
  if x.startSide = .notSet then startSideOf s.params.tSide (balance x) else x.startSide

/-- The phase of a track after a two-coil evaluation (R48). -/
def phaseAfter (s : State) (x : Track) : Phase := phaseMove s.params.tCross (startAfter s x) (balance x) x.phase

/-- What a two-coil evaluation finds (R45, R46, R48, R51, R58). -/
theorem judgeTwoCoil_parts (s : State) (x : Track) :
    (judgeTwoCoil s x).track =
        { x with
          lastD := some (balance x), startSide := startAfter s x, phase := phaseAfter s x, side := decideSide s x } ∧
      ((judgeTwoCoil s x).tagEntry = true ↔ x.phase = .OPEN ∧ phaseAfter s x = .IN ∧ x.side ≠ .LEFT) ∧
      ((judgeTwoCoil s x).due = some .OUT ↔
        (x.phase = .OPEN ∨ x.phase = .IN) ∧ phaseAfter s x = .OUT ∧ x.verdict = none) ∧
      ((judgeTwoCoil s x).due ≠ some .OUT → (judgeTwoCoil s x).due = none) := by
  refine ⟨rfl, ?_, ?_, ?_⟩
  · have notLeft : x.side ≠ .LEFT ↔ x.side = .RIGHT ∨ x.side = .UNSURE := by cases x.side <;> decide
    rw [notLeft]
    simp [judgeTwoCoil, phaseAfter, startAfter, and_assoc]
  · simp [judgeTwoCoil, phaseAfter, startAfter, beforeOut, and_assoc]
  · simp only [judgeTwoCoil]
    split <;> simp

/-- A strength of T_single on the working coil, on a track without a verdict (R54). -/
theorem singleDue_iff (s : State) (working : Coil) (x : Track) :
    singleDue s working x = true ↔
      x.verdict = none ∧ ∃ v, strengthOn working x = some v ∧ s.params.tSingle ≤ v := by
  cases strength : strengthOn working x <;> simp [singleDue, strength]

/-- What a single-coil evaluation finds (R45, R53, R54, R58). -/
theorem judgeSingle_parts (s : State) (working : Coil) (x : Track) :
    (judgeSingle s working x).track =
        { x with
          lastD := some (balance x)
          startSide := if x.startSide = .notSet then .NONE else x.startSide
          phase := if singleDue s working x = true ∧ (x.phase = .OPEN ∨ x.phase = .IN) then .OUT else x.phase
          side := decideSide s x } ∧
      (judgeSingle s working x).tagEntry = false ∧
      (judgeSingle s working x).due = if singleDue s working x = true then some .UNKNOWN else none := by
  refine ⟨?_, rfl, rfl⟩
  simp [judgeSingle, beforeOut]

/-! ## The side and its settling (R58, R60 to R62) -/

theorem twoLanes_iff (s : State) : twoLanes s = true ↔ s.supply.straps.station.val ≠ 0 ∧ s.supply.straps.isEnd = false := by
  simp [twoLanes, hasLeft, hasRight, State.station]

/-- How much more the fresh peer strength of the right lane is than that of the left (R58). -/
def sideMargin (s : State) (x : Track) : Int := (freshStrength s x.pR : Int) - (freshStrength s x.pL : Int)

theorem decideSide_twoLanes {s : State} (x : Track) (two : twoLanes s = true) :
    decideSide s x =
      if (s.params.mSide : Int) ≤ sideMargin s x then .RIGHT
      else if sideMargin s x ≤ -(s.params.mSide : Int) then .LEFT
      else x.side := by
  simp only [decideSide, two, Bool.not_true, Bool.false_eq_true, if_false]
  rfl

/-- The side decision of a station with two lanes, by the margin M_side (R58). -/
theorem decideSide_rows {s : State} (x : Track) (positive : 0 < s.params.mSide) (two : twoLanes s = true) :
    ((s.params.mSide : Int) ≤ sideMargin s x → decideSide s x = .RIGHT) ∧
      (sideMargin s x ≤ -(s.params.mSide : Int) → decideSide s x = .LEFT) ∧
      (-(s.params.mSide : Int) < sideMargin s x → sideMargin s x < s.params.mSide → decideSide s x = x.side) := by
  rw [decideSide_twoLanes x two]
  refine ⟨fun right => if_pos right, fun left => ?_, fun above below => ?_⟩
  · rw [if_neg (by omega), if_pos left]
  · rw [if_neg (by omega), if_neg (by omega)]

/-- A lane is recent when its last-broken round is at most 24 rounds back (R61). -/
theorem recent_iff {s : State} (two : twoLanes s = true) :
    (recent s .left = true ↔ ∃ r, s.track.leftBroken = some r ∧ roundsSince s.now r ≤ Config.recentRounds) ∧
      (recent s .right = true ↔ ∃ r, s.track.rightBroken = some r ∧ roundsSince s.now r ≤ Config.recentRounds) := by
  obtain ⟨left, right⟩ : hasLeft s = true ∧ hasRight s = true := by simpa [twoLanes] using two
  constructor
  · cases last : s.track.leftBroken <;> simp [recent, last, hasLane, left]
  · cases last : s.track.rightBroken <;> simp [recent, last, hasLane, right]

/-- A side that is not UNSURE, and any side at a station of one lane, stands at verdict time (R60). -/
theorem settledSide_stands {s : State} {x : Track} (stands : x.side ≠ .UNSURE ∨ ¬ twoLanes s = true) :
    settledSide s x = x.side := by
  unfold settledSide
  exact if_pos (by simpa using stands)

/-- An UNSURE side is settled by the peer-alarm, else by the one lane that is recent (R60, R62). -/
theorem settledSide_unsure {s : State} {x : Track} (unsure : x.side = .UNSURE) (two : twoLanes s = true) :
    (x.peerAlarm = some s.station → settledSide s x = .RIGHT) ∧
      (x.peerAlarm = some (s.station - 1) → settledSide s x = .LEFT) ∧
      (x.peerAlarm = none → recent s .left = true → ¬ recent s .right = true → settledSide s x = .LEFT) ∧
      (x.peerAlarm = none → recent s .right = true → ¬ recent s .left = true → settledSide s x = .RIGHT) ∧
      (x.peerAlarm = none → (recent s .left = true ↔ recent s .right = true) → settledSide s x = .UNSURE) := by
  obtain ⟨left, right⟩ : s.station ≠ 0 ∧ hasRight s = true := by simpa [twoLanes, hasLeft] using two
  have below : s.station - 1 ≠ s.station := by omega
  unfold settledSide
  simp only [unsure, two, ne_eq, not_true_eq_false, decide_false, Bool.not_true, Bool.or_self, Bool.false_eq_true, if_false]
  refine ⟨fun alarm => ?_, fun alarm => ?_, fun noAlarm isLeft notRight => ?_, fun noAlarm isRight notLeft => ?_,
    fun noAlarm same => ?_⟩
  · simp [alarm, sideOfLane, right]
  · simp [alarm, sideOfLane, below]
  · simp [noAlarm, isLeft, notRight]
  · simp [noAlarm, isRight, notLeft]
  · rw [noAlarm, Bool.eq_iff_iff.mpr same]
    cases recent s .right <;> rfl

/-- The lanes that the sides name (R63). -/
theorem lanesOf_eq (s : State) :
    lanesOf s .LEFT = (if hasLeft s then [.left] else []) ∧ lanesOf s .RIGHT = (if hasRight s then [.right] else []) ∧
      (twoLanes s = true → lanesOf s .UNSURE = [.left, .right]) := by
  cases left : hasLeft s <;> cases right : hasRight s <;> simp [lanesOf, hasLane, twoLanes, left, right]

/-! ## The outcome of a verdict request (R67, R68) -/

/-- A loan word passes when every bit set in the mask is set in it (R67). -/
theorem loanTestFails_iff (mask : BitVec 8) (loan : LoanWord) :
    loanTestFails mask loan = true ↔ ¬ ∀ i : Nat, mask.getLsbD i = true → loan.getLsbD i = true := by
  rw [loanTestFails, decide_eq_true_iff, ne_eq, not_iff_not]
  constructor
  · intro none i set
    have bit := congrArg (fun v => v.getLsbD i) none
    have within : i < 8 := BitVec.lt_of_getLsbD set
    rw [BitVec.getLsbD_and, BitVec.getLsbD_not, set, decide_eq_true within] at bit
    simpa using bit
  · intro passes
    refine BitVec.eq_of_getLsbD_eq fun i within => ?_
    rw [BitVec.getLsbD_and, BitVec.getLsbD_not, decide_eq_true within]
    cases set : mask.getLsbD i with
    | false => simp
    | true => simp [passes i set]

theorem excused_iff (s : State) (item : ItemCode) : excused s item = true ↔ ∃ e ∈ s.verdict.excuses, e.item = item := by
  simp [excused]

/-- The three outcomes of a verdict request (R67, R68). -/
theorem outcomeOf_rows (s : State) (item : ItemCode) (loan : LoanWord) :
    let passes := ∀ i : Nat, s.params.loanMask.getLsbD i = true → loan.getLsbD i = true
    (passes → outcomeOf s item loan = .PASS) ∧
      (¬ passes → (∃ e ∈ s.verdict.excuses, e.item = item) → outcomeOf s item loan = .EXCUSED) ∧
      (¬ passes → (∀ e ∈ s.verdict.excuses, e.item ≠ item) → outcomeOf s item loan = .ALARM) := by
  intro passes
  have fails : loanTestFails s.params.loanMask loan = true ↔ ¬ passes := loanTestFails_iff s.params.loanMask loan
  refine ⟨fun pass => ?_, fun fail listed => ?_, fun fail notListed => ?_⟩
  · rw [outcomeOf, if_neg (fails.not.mpr (not_not.mpr pass))]
  · rw [outcomeOf, if_pos (fails.mpr fail), if_pos ((excused_iff s item).mpr listed)]
  · rw [outcomeOf, if_pos (fails.mpr fail), if_neg ((excused_iff s item).not.mpr (by simpa using notListed))]

/-! ## The statement -/

/-- Settles O43, clause by clause: `judgeTwoCoil_parts` with `startSideOf_eq`, `phaseMove_rows` and `phaseMove_still`,
`judgeSingle_parts`, `decideSide_rows`, `settledSide_unsure` and `outcomeOf_rows`. -/
theorem twoCoilVerdict : Obligations.TwoCoilVerdict := by
  unfold Obligations.TwoCoilVerdict
  refine ⟨fun s x inRange => ?_, fun s working x => ?_, fun s x side positive judged => ?_, fun s x => ?_,
    fun s item loan => outcomeOf_rows s item loan⟩
  · intro j d side cross
    obtain ⟨-, -, ⟨sideLeast, -⟩, ⟨crossLeast, -⟩, -⟩ := inRange
    have sidePositive : 0 < s.params.tSide := Nat.lt_of_lt_of_le (by decide) sideLeast
    have crossPositive : 0 < s.params.tCross := Nat.lt_of_lt_of_le sidePositive crossLeast
    obtain ⟨track, tagEntry, due, dueElse⟩ := judgeTwoCoil_parts s x
    have start : j.track.startSide = startAfter s x := congrArg Track.startSide track
    have phase : j.track.phase = phaseAfter s x := congrArg Track.phase track
    obtain ⟨openOut, openIn, openStreet, openHall, inOut, outBack, inStays, outStays⟩ :=
      phaseMove_rows crossPositive (startAfter s x) d
    have moved : ∀ {p q : Phase}, x.phase = p → phaseMove s.params.tCross (startAfter s x) d p = q →
        phaseAfter s x = q := by
      rintro p q rfl row
      exact row
    rw [phase, start]
    refine ⟨congrArg Track.lastD track, fun set => if_neg set, fun notSet => ?_,
      fun isOpen high other => moved isOpen (openOut high other),
      fun isOpen low other => moved isOpen (openIn low other), fun isOpen high street => moved isOpen (openStreet high street),
      fun isOpen low hall => moved isOpen (openHall low hall), fun isIn high => moved isIn (inOut high),
      fun isOut low => moved isOut (outBack low), fun isIn low => moved isIn (inStays low),
      fun isOut high => moved isOut (outStays high), fun isBack => moved isBack rfl,
      fun above below => phaseMove_still _ _ above below, tagEntry, due, dueElse⟩
    have first : startAfter s x = startSideOf s.params.tSide d := if_pos notSet
    obtain ⟨hall, street, middle⟩ := startSideOf_eq sidePositive d
    rw [first] at moved ⊢
    exact ⟨hall, street, middle, fun isOpen => moved isOpen (phaseMove_first sidePositive crossLeast d)⟩
  · intro j strength reached
    obtain ⟨track, tagEntry, due⟩ := judgeSingle_parts s working x
    have fallsDue : singleDue s working x = true ↔ reached := singleDue_iff s working x
    have phase : j.track.phase =
        if singleDue s working x = true ∧ (x.phase = .OPEN ∨ x.phase = .IN) then .OUT else x.phase :=
      congrArg Track.phase track
    have side : j.track.side = decideSide s x := congrArg Track.side track
    refine ⟨?_, fun hit before => ?_, fun stays => ?_, tagEntry, fun hit => ?_, fun miss => ?_⟩
    · rw [phase, side]
      exact track
    · rw [phase, if_pos ⟨fallsDue.mpr hit, before⟩]
    · rw [phase, if_neg]
      rintro ⟨hit, before⟩
      rcases stays with miss | isOut | isBack
      · exact miss (fallsDue.mp hit)
      · simp [isOut] at before
      · simp [isBack] at before
    · rw [due, if_pos (fallsDue.mpr hit)]
    · rw [due, if_neg (fallsDue.not.mpr miss)]
  · intro fresh more both
    have decided : side = decideSide s x := by
      rcases judged with rfl | ⟨working, rfl⟩ <;> rfl
    have strength : ∀ p, (freshStrength s p : Int) = fresh p := by
      intro p
      cases p with
      | none => rfl
      | some p => exact Nat.cast_ite _ _ _
    have margin : sideMargin s x = more := by rw [sideMargin, strength, strength]
    have two : twoLanes s = true ↔ both := twoLanes_iff s
    rw [decided, ← margin]
    refine ⟨fun one => decideSide_oneLane (Bool.eq_false_iff.mpr (two.not.mpr one)), ?_⟩
    simp only [← forall_and]
    exact fun isBoth => decideSide_rows x positive (two.mpr isBoth)
  · intro station both seen
    have two : twoLanes s = true ↔ both := twoLanes_iff s
    obtain ⟨left, right, unsure⟩ := lanesOf_eq s
    refine ⟨fun stands => settledSide_stands (stands.imp_right two.not.mpr), fun isUnsure isBoth => ?_, ?_, ?_,
      fun isBoth => unsure (two.mpr isBoth)⟩
    · obtain ⟨recentLeft, recentRight⟩ := recent_iff (two.mpr isBoth)
      have settled := settledSide_unsure isUnsure (two.mpr isBoth)
      rw [recentLeft, recentRight] at settled
      exact settled
    · rw [left]
      simp [hasLeft, State.station, station]
    · rw [right]
      cases isEnd : s.supply.straps.isEnd <;> simp [hasRight, isEnd]

end Sys2Proof.Machine
end

section
/-! PROOFS. The slot of a neighbour: its code, its beam bits and its calm value handed on (O26). -/

namespace Sys2Proof.Machine

/-! ## What an observed code leaves as it is (R95, R143) -/

/-- The other lane of a pedestal. -/
def otherLane : LaneSide → LaneSide
  | .left => .right
  | .right => .left

theorem putLane_other (l : LaneSide) (st : LaneState) (s : State) :
    laneState (putLane l st s) (otherLane l) = laneState s (otherLane l) := by
  cases l <;> rfl

theorem setLane_other (l : LaneSide) (st : LaneState) (s : State) :
    laneState (setLane l st s) (otherLane l) = laneState s (otherLane l) := by
  cases l <;> simp [laneState, otherLane, setLane_lanes, putLane]

theorem rearm_other (l : LaneSide) (s : State) : laneState (rearm l s) (otherLane l) = laneState s (otherLane l) := by
  unfold rearm
  split
  · exact setLane_other l _ s
  · rfl

theorem makeRecord_laneState (body : ReportBody) (s : State) (l : LaneSide) :
    laneState (makeRecord body s) l = laneState s l := by
  cases l <;> simp [laneState]

theorem takePeerCode_other (l : LaneSide) (old new : PeerCode) (s : State) :
    laneState (takePeerCode l old new s) (otherLane l) = laneState s (otherLane l) := by
  unfold takePeerCode
  split
  · split
    · rw [enterSounding, makeRecord_laneState, setLane_other]
    · rfl
  · split
    · unfold hushLane
      split
      · rw [rearm_other, makeRecord_laneState, setLane_other]
      · rfl
    · rfl
  · exact rearm_other l s

/-! ## One observation (R95, R191) -/

/-- A peer code record after an observation, or after a slot that gives none (R94, R95). -/
def heardRecord (seen : Option PeerCode) (r : PeerRecord) : PeerRecord :=
  match seen with
  | none => r
  | some code => { confirmed := if r.lastSeen = some code then code else r.confirmed, lastSeen := some code }

theorem quietCode_iff (c : PeerCode) : quietCode c = true ↔ c = .code .QUIET ∨ c = .ABSENT := by
  simp [quietCode]

/-- Whether a confirmed code sets the dormant timer to 0: it is new, and neither QUIET nor ABSENT (R191). -/
abbrev codeStirs (old new : PeerCode) : Prop := new ≠ old ∧ new ≠ .code .QUIET ∧ new ≠ .ABSENT

/-- The supply block with both parts of the dormant timer at 0, and so without a pending entry (R191). -/
def timerCleared (u : SupplyUnit) : SupplyUnit := { u with dormantRounds := 0, quietMinutes := 0, pendingEntry := false }

/-- Two causes that clear the dormant timer come to one. -/
theorem timerCleared_or (p q : Prop) [Decidable p] [Decidable q] (u : SupplyUnit) :
    (if p then timerCleared (if q then timerCleared u else u) else if q then timerCleared u else u) =
      if p ∨ q then timerCleared u else u := by
  by_cases first : p <;> by_cases second : q <;> simp [first, second, timerCleared]

/-- An observation, or none, at the peer code record of a lane. -/
def hearCode (l : LaneSide) (seen : Option PeerCode) (s : State) : State :=
  match seen with
  | none => s
  | some code => observe l code s

theorem putPeer_same (l : LaneSide) (s : State) : putPeer l (peerRecord s l) s = s := by
  cases l <;> rfl

/-- A confirmed code that stays moves the record alone. -/
theorem hearCode_stays {l : LaneSide} {seen : Option PeerCode} {s : State}
    (stays : (heardRecord seen (peerRecord s l)).confirmed = (peerRecord s l).confirmed) :
    hearCode l seen s = putPeer l (heardRecord seen (peerRecord s l)) s := by
  cases seen with
  | none => exact (putPeer_same l s).symm
  | some code => exact if_pos stays

/-- A newly confirmed code goes to the lane unit, and to the dormant timer if it is not quiet. -/
theorem hearCode_new {l : LaneSide} {seen : Option PeerCode} {s : State}
    (new : (heardRecord seen (peerRecord s l)).confirmed ≠ (peerRecord s l).confirmed) :
    hearCode l seen s =
      takePeerCode l (peerRecord s l).confirmed (heardRecord seen (peerRecord s l)).confirmed
        (if quietCode (heardRecord seen (peerRecord s l)).confirmed then putPeer l (heardRecord seen (peerRecord s l)) s
        else dormantTimerZero (putPeer l (heardRecord seen (peerRecord s l)) s)) := by
  cases seen with
  | none => exact absurd rfl new
  | some code => exact if_neg new

theorem hearCode_line (l : LaneSide) (seen : Option PeerCode) (s : State) :
    (hearCode l seen s).line = (putPeer l (heardRecord seen (peerRecord s l)) s).line := by
  by_cases stays : (heardRecord seen (peerRecord s l)).confirmed = (peerRecord s l).confirmed
  · rw [hearCode_stays stays]
  · rw [hearCode_new stays]
    split <;> simp

theorem hearCode_supply (l : LaneSide) (seen : Option PeerCode) (s : State) :
    (hearCode l seen s).supply =
      if codeStirs (peerRecord s l).confirmed (heardRecord seen (peerRecord s l)).confirmed then timerCleared s.supply
      else s.supply := by
  by_cases stays : (heardRecord seen (peerRecord s l)).confirmed = (peerRecord s l).confirmed
  · rw [hearCode_stays stays]
    simp [codeStirs, stays]
  · rw [hearCode_new stays]
    by_cases quiet : quietCode (heardRecord seen (peerRecord s l)).confirmed = true
    · have calm : ¬ codeStirs (peerRecord s l).confirmed (heardRecord seen (peerRecord s l)).confirmed :=
        fun stirs => (quietCode_iff _).not.mpr (not_or.mpr stirs.2) quiet
      rw [if_pos quiet, if_neg calm]
      simp
    · have stirs : codeStirs (peerRecord s l).confirmed (heardRecord seen (peerRecord s l)).confirmed :=
        ⟨stays, not_or.mp ((quietCode_iff _).not.mp quiet)⟩
      rw [if_neg quiet, if_pos stirs]
      simp [dormantTimerZero, timerCleared]

theorem hearCode_other (l : LaneSide) (seen : Option PeerCode) (s : State) :
    laneState (hearCode l seen s) (otherLane l) = laneState s (otherLane l) := by
  have put : ∀ r, laneState (putPeer l r s) (otherLane l) = laneState s (otherLane l) := fun r => by cases l <;> rfl
  by_cases stays : (heardRecord seen (peerRecord s l)).confirmed = (peerRecord s l).confirmed
  · rw [hearCode_stays stays, put]
  · rw [hearCode_new stays, takePeerCode_other]
    split <;> exact put (heardRecord seen (peerRecord s l))

theorem hearCode_frame (l : LaneSide) (seen : Option PeerCode) (s : State) :
    (hearCode l seen s).track = s.track ∧ (hearCode l seen s).access = s.access ∧ (hearCode l seen s).notices = s.notices ∧
      (hearCode l seen s).line.round = s.line.round := by
  cases seen <;> simp [hearCode]

/-! ## The neighbours' slots (R61, R94) -/

/-- Whether station j shares the lane on that side: the neighbour there (00, 0.4). -/
def sharesLane (s : State) (l : LaneSide) (j : Fin 16) : Prop :=
  match l with
  | .left => j.val + 1 = s.supply.straps.station.val
  | .right => j.val = s.supply.straps.station.val + 1 ∧ s.supply.straps.isEnd = false

theorem notLeft_of_right {s : State} {j : Fin 16} (shared : sharesLane s .right j) :
    j.val + 1 ≠ s.supply.straps.station.val := by
  obtain ⟨next, -⟩ := shared
  omega

theorem sharesLane_ne {s : State} {l : LaneSide} {j : Fin 16} (shared : sharesLane s l j) :
    j.val ≠ s.supply.straps.station.val := by
  cases l with
  | left => exact Nat.ne_of_lt (Nat.lt_of_succ_le (Nat.le_of_eq shared))
  | right => exact Nat.ne_of_gt (Nat.lt_of_succ_le (Nat.le_of_eq shared.1.symm))

/-- The code of a slot word for the lane that its sender shares on that side: the left neighbour's right lane, and the other way
about (R94). -/
def sharedCode : LaneSide → SlotWord → LaneCode
  | .left => SlotWord.right
  | .right => SlotWord.left

/-- A neighbour's code goes to the record of the shared lane. -/
theorem handCode_shared {s : State} {l : LaneSide} {j : Fin 16} (shared : sharesLane s l j) (o : SlotOutcome) :
    handCode j o s = hearCode l (slotObservation (sharedCode l) o) s := by
  cases l with
  | left =>
    have left : (hasLeft s && decide (j.val + 1 = s.station)) = true := by
      have station : j.val + 1 = s.station := shared
      simp [hasLeft, ← station]
    rw [handCode, if_pos left]
    rfl
  | right =>
    obtain ⟨next, notEnd⟩ := shared
    have notLeft : ¬ (hasLeft s && decide (j.val + 1 = s.station)) = true := by
      simp [State.station, notLeft_of_right ⟨next, notEnd⟩]
    have right : (hasRight s && decide (j.val = s.station + 1)) = true := by
      simp [hasRight, notEnd, State.station, next]
    rw [handCode, if_neg notLeft, if_pos right]
    rfl

/-- The track unit after the beam bits of the neighbour that shares lane `l`: those of the left neighbour, if broken, set the left
lane's last-broken round (R61, R94). -/
def trackAfterBeams (l : LaneSide) (o : SlotOutcome) (now : Round) (u : TrackUnit) : TrackUnit :=
  match l with
  | .left => { u with leftBroken := if slotBeamBroken o then some now else u.leftBroken }
  | .right => u

theorem handBeams_shared {s : State} {l : LaneSide} {j : Fin 16} (shared : sharesLane s l j) (o : SlotOutcome) :
    (handBeams j o s).track = trackAfterBeams l o s.line.round s.track := by
  cases l with
  | left =>
    have station : j.val + 1 = s.station := shared
    have left : hasLeft s = true := by simp [hasLeft, ← station]
    cases broken : slotBeamBroken o <;> simp [handBeams, left, station, broken, State.now, trackAfterBeams]
  | right => simp [handBeams, State.station, notLeft_of_right shared, trackAfterBeams]

/-! ## The calm value handed on (R133, R134, R191) -/

/-- Whether a calm value is a change from CALM to BRISK of a station, when that is within reach (R134). -/
abbrev turnsBrisk (near : Bool) (j : Fin 16) (value : Cadence) (a : AccessUnit) : Prop :=
  near = true ∧ a.peerCalm[j] = .CALM ∧ value = .BRISK

/-- The access unit of an AWAKE pedestal after a calm value: that of a station within reach is taken, and a change to BRISK makes
a CALM pedestal BRISK (R133, R134). -/
def accessAfterCalm (near : Bool) (j : Fin 16) (value : Cadence) (a : AccessUnit) : AccessUnit :=
  { a with
    peerCalm := if near then a.peerCalm.set j value else a.peerCalm
    cadence := if turnsBrisk near j value a then .BRISK else a.cadence
    quietRounds := if turnsBrisk near j value a ∧ a.cadence = .CALM then 0 else a.quietRounds }

theorem accessAfterCalm_still {near : Bool} {j : Fin 16} {value : Cadence} {a : AccessUnit}
    (still : ¬ turnsBrisk near j value a) :
    accessAfterCalm near j value a = { a with peerCalm := if near then a.peerCalm.set j value else a.peerCalm } := by
  rw [accessAfterCalm, if_neg still, if_neg fun both => still both.1]

/-- An AWAKE pedestal takes a calm value; a change to BRISK clears the dormant timer too (R134, R191). -/
theorem handCalm_awake {s : State} (j : Fin 16) (value : Cadence) (awake : s.supply.dormancy = .AWAKE) :
    handCalm j value s =
      { s with
        access := accessAfterCalm (withinReach s j) j value s.access
        supply := if turnsBrisk (withinReach s j) j value s.access then timerCleared s.supply else s.supply } := by
  by_cases reach : withinReach s j = true
  · by_cases brisk : s.access.peerCalm[j] = .CALM ∧ value = .BRISK
    · obtain ⟨calm, rfl⟩ := brisk
      have taken : handCalm j .BRISK s =
          dormantTimerZero (briskEntry (s.onAccess fun a => { a with peerCalm := a.peerCalm.set j .BRISK })) := by
        simp only [handCalm, reach, calm, awake]
        rfl
      have turns : turnsBrisk (withinReach s j) j .BRISK s.access := ⟨reach, calm, rfl⟩
      rw [taken, accessAfterCalm, if_pos turns, if_pos turns, if_pos reach]
      simp only [and_iff_right turns]
      cases cadence : s.access.cadence <;>
        simp [briskEntry, cadence, dormantTimerZero, timerCleared, State.onAccess, State.onSupply]
    · have still : ¬ turnsBrisk (withinReach s j) j value s.access := fun turns => brisk turns.2
      have noChange : (decide (s.access.peerCalm[j] = .CALM) && decide (value = .BRISK)) = false := by simpa using brisk
      rw [accessAfterCalm_still still, if_neg still]
      simp only [handCalm, reach, noChange]
      rfl
  · have still : ¬ turnsBrisk (withinReach s j) j value s.access := fun turns => reach turns.1
    rw [accessAfterCalm_still still, if_neg still]
    simp only [handCalm, reach]
    rfl

theorem withinReach_congr {s t : State} (j : Fin 16) (straps : t.supply.straps = s.supply.straps) :
    withinReach t j = withinReach s j := by
  rw [withinReach, withinReach, State.station, State.station, straps]

/-! ## The end of a neighbour's slot (R93, R94) -/

/-- The part when a slot is entered, before its fields are handed on (R93). -/
def slotEntered (j : Fin 16) (o : SlotOutcome) (s : State) : State :=
  { s with line := { s.line with slots := s.line.slots.set j o, timer := 31 + 16 * j.val } }

theorem slotEnd_neighbour {s : State} {l : LaneSide} {j : Fin 16} (awake : s.supply.dormancy = .AWAKE)
    (state : s.line.state = .SYNCED ∨ (s.line.state = .CLASHED ∧ s.line.timing = .FOLLOWING)) (shared : sharesLane s l j)
    (o : SlotOutcome) :
    slotEnd j o s =
      handCalm j (slotCalm o) (handBeams j o (hearCode l (slotObservation (sharedCode l) o) (slotEntered j o s))) := by
  have reads : readsSlots s = true := by
    rcases state with synced | ⟨clashed, following⟩ <;> simp [readsSlots, *]
  have takes : takesRow (slotEntered j o s) = true := by
    rcases state with synced | ⟨clashed, -⟩ <;> simp [takesRow, slotEntered, *]
  have other : j.val ≠ s.station := sharesLane_ne shared
  have entered : (readsSlots s && decide (j.val ≠ s.station)) = true := by simp [reads, other]
  rw [slotEnd, if_pos entered, ← handCode_shared (s := slotEntered j o s) shared]
  exact congrArg (handCalm j (slotCalm o)) (if_pos takes)

/-- The part when a neighbour's slot has been entered and its code handed on (R93 to R95, R191). -/
theorem hearCode_entered (l : LaneSide) (j : Fin 16) (o : SlotOutcome) (s : State) :
    let r := peerRecord s l
    let heard := heardRecord (slotObservation (sharedCode l) o) r
    ∃ told, hearCode l (slotObservation (sharedCode l) o) (slotEntered j o s) = told ∧
      told.line = (putPeer l heard (slotEntered j o s)).line ∧
      told.supply = (if codeStirs r.confirmed heard.confirmed then timerCleared s.supply else s.supply) ∧
      (heard.confirmed = r.confirmed → told.lanes = s.lanes ∧ told.sounder = s.sounder ∧ told.host = s.host) ∧
      laneState told (otherLane l) = laneState s (otherLane l) ∧
      told.track = s.track ∧ told.access = s.access ∧ told.notices = s.notices ∧ told.line.round = s.line.round := by
  intro r heard
  have record : peerRecord (slotEntered j o s) l = r := by cases l <;> rfl
  obtain ⟨track, access, notices, round⟩ := hearCode_frame l (slotObservation (sharedCode l) o) (slotEntered j o s)
  refine ⟨_, rfl, ?_, ?_, fun stays => ?_, ?_, track, access, notices, round⟩
  · rw [hearCode_line, record]
  · rw [hearCode_supply, record]
    rfl
  · rw [hearCode_stays (by rw [record]; exact stays)]
    simp [slotEntered]
  · rw [hearCode_other]
    cases l <;> rfl

/-- The end of the slot of the neighbour that shares lane `l`, at an AWAKE pedestal that takes the row's codes: what each block
becomes (R61, R94, R95, R133, R134, R191). -/
theorem slotEnd_shared {s : State} {l : LaneSide} {j : Fin 16} (awake : s.supply.dormancy = .AWAKE)
    (state : s.line.state = .SYNCED ∨ (s.line.state = .CLASHED ∧ s.line.timing = .FOLLOWING)) (shared : sharesLane s l j)
    (o : SlotOutcome) :
    let r := peerRecord s l
    let heard := heardRecord (slotObservation (sharedCode l) o) r
    let t := slotEnd j o s
    t.line = (putPeer l heard (slotEntered j o s)).line ∧
      t.access = accessAfterCalm (withinReach s j) j (slotCalm o) s.access ∧
      t.supply =
        (if turnsBrisk (withinReach s j) j (slotCalm o) s.access ∨ codeStirs r.confirmed heard.confirmed then
          timerCleared s.supply
        else s.supply) ∧
      (heard.confirmed = r.confirmed → t.lanes = s.lanes ∧ t.sounder = s.sounder ∧ t.host = s.host) ∧
      t.track = trackAfterBeams l o s.line.round s.track ∧ laneState t (otherLane l) = laneState s (otherLane l) ∧
      t.notices = s.notices := by
  intro r heard t
  obtain ⟨told, hears, line, supply, stays, other, track, access, notices, round⟩ := hearCode_entered l j o s
  have ended : t = handCalm j (slotCalm o) (handBeams j o told) := hears ▸ slotEnd_neighbour awake state shared o
  have straps : told.supply.straps = s.supply.straps := by rw [supply]; split <;> rfl
  have toldAwake : told.supply.dormancy = .AWAKE := by rw [supply]; split <;> exact awake
  have toldShared : sharesLane told l j := by
    simp only [sharesLane, straps]
    exact shared
  obtain ⟨-, -, beamsLine, beamsAccess, beamsNotices, beamsLanes, beamsSounder, -, beamsHost, beamsSupply, -⟩ :=
    handBeams_frame j o told
  rw [handCalm_awake j (slotCalm o) (beamsSupply ▸ toldAwake), withinReach_congr j (beamsSupply ▸ straps), beamsAccess,
    beamsSupply, access, supply] at ended
  rw [ended]
  refine ⟨beamsLine.trans line, rfl, ?_, fun same => ?_, ?_, ?_, beamsNotices.trans notices⟩
  · exact timerCleared_or _ _ s.supply
  · obtain ⟨lanes, sounder, host⟩ := stays same
    exact ⟨beamsLanes.trans lanes, beamsSounder.trans sounder, beamsHost.trans host⟩
  · exact (handBeams_shared toldShared o).trans (by rw [track, round])
  · rw [← other]
    cases l
    · exact congrArg LaneUnit.right beamsLanes
    · exact congrArg LaneUnit.left beamsLanes

/-! ## The statement -/

/-- Settles O26: `slotEnd_shared` for the left and for the right neighbour, read in the three outcomes of a slot. -/
theorem peerCodeConfirmed : Obligations.PeerCodeConfirmed := by
  unfold Obligations.PeerCodeConfirmed
  intro bits j s running awake state after calm change taken
  have heard : ∀ r pick, after r pick = heardRecord (slotObservation pick (slotOutcome bits)) r := by
    intro r pick
    simp only [after]
    cases slotOutcome bits <;> rfl
  have handed : calm = slotCalm (slotOutcome bits) := by
    simp only [calm]
    cases slotOutcome bits <;> rfl
  have ends : exec (.slotReceived j bits) s = .next (slotEnd j (slotOutcome bits) s) := exec_running _ running
  obtain ⟨field, verdict, beams, pending⟩ := slotEnd_frame j (slotOutcome bits) s
  refine ⟨fun left => ?_, fun right notEnd => ?_⟩
  · intro r
    obtain ⟨line, access, supply, stays, track, other, notices⟩ :=
      slotEnd_shared (l := .left) awake state left (slotOutcome bits)
    have record : r = _ := heard s.line.peerLeft SlotWord.right
    rw [← handed] at access supply
    rw [record]
    refine ⟨_, ends, line, ⟨access, supply, stays⟩, ?_, other, field, verdict, notices, beams, pending⟩
    rw [track, trackAfterBeams]
    cases slotOutcome bits with
    | PRESENT w => simp [slotBeamBroken]
    | ABSENT | NOT_RECEIVED => rfl
  · intro r
    obtain ⟨line, access, supply, stays, track, other, notices⟩ :=
      slotEnd_shared (l := .right) awake state ⟨right, notEnd⟩ (slotOutcome bits)
    have record : r = _ := heard s.line.peerRight SlotWord.left
    rw [← handed] at access supply
    rw [record]
    exact ⟨_, ends, line, ⟨access, supply, stays⟩, track, other, field, verdict, notices, beams, pending⟩

end Sys2Proof.Machine
end

section
/-! PROOFS. A verdict once given stands as long as its track is in the table, through tracks, verdicts and field windows (O9). -/

namespace Sys2Proof.Machine

/-! ## The records of one item (R66, R69) -/

/-- Every record of an item in the track table holds the verdict `v`. -/
def verdictHeld (item : ItemCode) (v : VerdictRecord) (s : State) : Prop :=
  ∀ y ∈ s.track.table, y.item = item → y.verdict = some v

section
variable {item : ItemCode} {v : VerdictRecord}

/-- Records that leave, and records that stay, leave the verdict. -/
theorem verdictHeld_subset {s t : State} (h : verdictHeld item v s) (fewer : t.track.table ⊆ s.track.table) :
    verdictHeld item v t := fun y mem same => h y (fewer mem) same

theorem verdictHeld_frame {s t : State} (h : verdictHeld item v s) (track : t.track = s.track) : verdictHeld item v t :=
  verdictHeld_subset h (by rw [track]; exact .refl _)

/-- An empty table holds no record without the verdict. -/
theorem verdictHeld_empty {s : State} (empty : s.track.table = []) : verdictHeld item v s := by
  simp [verdictHeld, empty]

/-- Changes of records that keep the items, and the verdicts of `item`, keep the verdict. -/
theorem verdictHeld_map {f : Track → Track} {s t : State} (h : verdictHeld item v s)
    (mapped : t.track.table = s.track.table.map f)
    (kept : ∀ y ∈ s.track.table, (f y).item = y.item ∧ (y.item = item → (f y).verdict = y.verdict)) :
    verdictHeld item v t := by
  intro y mem same
  obtain ⟨x, old, rfl⟩ := List.mem_map.mp (mapped ▸ mem)
  obtain ⟨sameItem, sameVerdict⟩ := kept x old
  have named : x.item = item := sameItem ▸ same
  rw [sameVerdict named]
  exact h x old named

/-- A change of the records of one item that keeps the item, and the verdict where that item is `item`, keeps the verdict. -/
theorem verdictHeld_records {other : ItemCode} {f : Track → Track} {s t : State} (h : verdictHeld item v s)
    (changed : t.track = recordsChanged other f s.track)
    (kept : ∀ y ∈ s.track.table, y.item = other → (f y).item = other ∧ (other = item → (f y).verdict = y.verdict)) :
    verdictHeld item v t := by
  refine verdictHeld_map h (congrArg TrackUnit.table changed) fun y mem => ?_
  split
  · rename_i named
    obtain ⟨sameItem, sameVerdict⟩ := kept y mem named
    exact ⟨sameItem.trans named.symm, fun same => sameVerdict (named.symm.trans same)⟩
  · exact ⟨rfl, fun _ => rfl⟩

/-! ## Verdicts given (R50, R66) -/

theorem findTrack_mem {s : State} {other : ItemCode} {t : Track} (found : findTrack s other = some t) : t ∈ s.track.table :=
  List.mem_of_find?_eq_some found

/-- Without a verdict due, what a judgement found is written, and no more. -/
theorem settleJudgement_undue (before : Track) {j : Judgement} (s : State) (undue : j.due = none) :
    (evaluate.settleJudgement before j s).track = recordsChanged before.item (fun _ => j.track) s.track := by
  simp only [evaluate.settleJudgement, undue]
  (repeat' split) <;> simp [updTrack_track]

/-- A judgement that keeps the item and the verdict of its record, and lets a verdict fall due for one that has none, keeps the
verdict. -/
theorem settleJudgement_stands {other : ItemCode} {before : Track} {j : Judgement} {s : State} (h : verdictHeld item v s)
    (found : findTrack s other = some before) (sameItem : j.track.item = before.item)
    (sameVerdict : j.track.verdict = before.verdict) (dueOnce : j.due ≠ none → before.verdict = none) :
    verdictHeld item v (evaluate.settleJudgement before j s) := by
  have mem := findTrack_mem found
  by_cases undue : j.due = none
  · refine verdictHeld_records h (settleJudgement_undue before s undue) fun y old named => ⟨sameItem, fun same => ?_⟩
    rw [sameVerdict, h before mem same, h y old (named.trans same)]
  · have apart : before.item ≠ item := fun same => by simpa [h before mem same] using dueOnce undue
    obtain ⟨f, only, changed⟩ := settleJudgement_track before j s sameItem
    exact verdictHeld_records h changed fun y _ _ =>
      ⟨by rw [only j.track]; exact sameItem, fun same => absurd same apart⟩

theorem judgeTwoCoil_dueOnce (s : State) (t : Track) (due : (judgeTwoCoil s t).due ≠ none) : t.verdict = none := by
  by_contra given
  have told : t.verdict.isNone = false := Option.isNone_eq_false_iff.mpr (Option.isSome_iff_ne_none.mpr given)
  exact due (by simp [judgeTwoCoil, told])

theorem judgeSingle_dueOnce (s : State) (working : Coil) (t : Track) (due : (judgeSingle s working t).due ≠ none) :
    t.verdict = none := by
  by_contra given
  have told : t.verdict.isNone = false := Option.isNone_eq_false_iff.mpr (Option.isSome_iff_ne_none.mpr given)
  exact due (by simp [judgeSingle, singleDue, told])

/-- An evaluation keeps the verdict (R44, R50, R54). -/
theorem evaluate_stands (other : ItemCode) {s : State} (h : verdictHeld item v s) : verdictHeld item v (evaluate other s) := by
  unfold evaluate
  split
  · exact h
  · rename_i found
    split
    · exact h
    · exact settleJudgement_stands h found rfl rfl (judgeTwoCoil_dueOnce s _)
    · exact settleJudgement_stands h found rfl rfl (judgeSingle_dueOnce s _ _)

/-! ## Tracks that leave and tracks made (R24, R33, R35) -/

theorem expireTrack_stands (other : ItemCode) {s : State} (h : verdictHeld item v s) :
    verdictHeld item v (expireTrack other s) :=
  verdictHeld_subset h (by rw [expireTrack_table]; exact List.filter_subset_self _)

theorem expireTracks_stands {s : State} (h : verdictHeld item v s) : verdictHeld item v (expireTracks s) :=
  foldl_holds_mem (verdictHeld item v) _ _ (fun other _ _ hu => expireTrack_stands other hu) h

theorem evict_stands {s : State} (h : verdictHeld item v s) : verdictHeld item v (evict s) := by
  unfold evict
  split
  · exact h
  · exact verdictHeld_frame (expireTrack_stands _ h) (evictionCounted_frame _).2.1

/-- A read makes a record only for an item that has none, so not for one in the table (R22, R24). -/
theorem takeRead_stands (other : ItemCode) (loan : LoanWord) (c : Coil) (strength : Strength) {s : State}
    (tracked : ∃ x ∈ s.track.table, x.item = item) (h : verdictHeld item v s) :
    verdictHeld item v (takeRead other loan c strength s) := by
  by_cases known : ∃ x ∈ s.track.table, x.item = other
  · rw [takeRead_known loan c strength known]
    refine verdictHeld_records h (updTrack_track _ _ s) fun y _ named => ?_
    rw [readTrack_eq]
    exact ⟨named, fun _ => rfl⟩
  · have unknown : ∀ x ∈ s.track.table, x.item ≠ other := fun x mem same => known ⟨x, mem, same⟩
    have apart : other ≠ item := by
      obtain ⟨x, mem, named⟩ := tracked
      exact fun same => unknown x mem (named.trans same.symm)
    rw [takeRead_new loan c strength unknown, createTrack_eq]
    intro y mem same
    rcases List.mem_append.mp mem with old | new
    · split at old
      · exact h y old same
      · exact evict_stands h y old same
    · rw [List.mem_singleton.mp new] at same
      exact absurd same apart

theorem passRead_stands (c : Coil) (seen : List ItemCode) (reply : Option Reply) {s : State}
    (tracked : ∃ x ∈ s.track.table, x.item = item) (h : verdictHeld item v s) :
    verdictHeld item v (passRead c seen reply s) := by
  unfold passRead
  split
  · exact h
  · split
    · exact takeRead_stands _ _ _ _ tracked h
    · exact h

/-! ## Field windows (R1, R2, R17) -/

theorem completeSweep_stands (c : Coil) (sweep : Sweep) {s : State} (h : verdictHeld item v s) :
    verdictHeld item v (completeSweep c sweep s) := by
  rw [completeSweep_swept]
  refine verdictHeld_map h rfl fun y _ => ?_
  obtain ⟨sameItem, sameVerdict⟩ := afterSweep_kept c sweep s.host.params.decayStep y
  exact ⟨sameItem, fun _ => sameVerdict⟩

theorem clearMarks_stands {s : State} (h : verdictHeld item v s) : verdictHeld item v (clearMarks s) :=
  verdictHeld_map h rfl fun _ _ => ⟨rfl, fun _ => rfl⟩

theorem windowEnd_stands {s : State} (h : verdictHeld item v s) : verdictHeld item v (windowEnd s) := by
  have judged := foldl_holds_mem (verdictHeld item v) _ ((s.track.table.filter isMarked).map Track.item)
    (fun other _ _ hu => evaluate_stands other hu) h
  exact clearMarks_stands (verdictHeld_frame judged (by simp))

/-- A half-sweep as it begins: it goes on to its work, or, passed over or without a call, leaves what follows it (R4, R5, R11). -/
def sweepStart (kind : WindowKind) (c : Coil) (sense : DriveSense) (next : State → State) (s : State) : State :=
  let checked := (driveCheck c sense s).1
  let begun := beginSweep kind c checked
  if (driveCheck c sense s).2 then
    if sweepIdle (freshSweep kind checked) then next (completeSweep c (freshSweep kind checked) begun) else begun
  else next checked

theorem secondHalf_eq (kind : WindowKind) (sense : DriveSense) (s : State) :
    secondHalf kind sense s = sweepStart kind .S sense windowEnd s := by
  simp only [secondHalf, sweepStart, beginSweep_eq, onField_field]

theorem firstHalf_eq (kind : WindowKind) (sense : DriveSense) (s : State) :
    firstHalf kind sense s = sweepStart kind .H sense (secondHalf kind sense) s := by
  simp only [firstHalf, sweepStart, beginSweep_eq, onField_field]

theorem sweepStart_stands (kind : WindowKind) (c : Coil) (sense : DriveSense) {next : State → State}
    (goesOn : ∀ u, verdictHeld item v u → verdictHeld item v (next u)) {s : State} (h : verdictHeld item v s) :
    verdictHeld item v (sweepStart kind c sense next s) := by
  have checked : verdictHeld item v (driveCheck c sense s).1 := verdictHeld_frame h (by simp)
  have begun : verdictHeld item v (beginSweep kind c (driveCheck c sense s).1) := checked
  unfold sweepStart
  simp only
  split
  · split
    · exact goesOn _ (completeSweep_stands c _ begun)
    · exact begun
  · exact goesOn _ checked

theorem secondHalf_stands (kind : WindowKind) (sense : DriveSense) {s : State} (h : verdictHeld item v s) :
    verdictHeld item v (secondHalf kind sense s) := by
  rw [secondHalf_eq]
  exact sweepStart_stands kind .S sense (fun _ hu => windowEnd_stands hu) h

theorem firstHalf_stands (kind : WindowKind) (sense : DriveSense) {s : State} (h : verdictHeld item v s) :
    verdictHeld item v (firstHalf kind sense s) := by
  rw [firstHalf_eq]
  exact sweepStart_stands kind .H sense (fun _ hu => secondHalf_stands kind sense hu) h

theorem endHalf_stands (w : Window) (sense : DriveSense) {s : State} (h : verdictHeld item v s) :
    verdictHeld item v (endHalf w sense s) := by
  have completed := completeSweep_stands w.half w.sweep h
  unfold endHalf
  simp only
  split
  · exact secondHalf_stands _ sense completed
  · exact windowEnd_stands completed

theorem progress_stands (half : Coil) (sweep : Sweep) (done : Bool) (sense : DriveSense) {s : State} (h : verdictHeld item v s) :
    verdictHeld item v (progress half sweep done sense s) := by
  unfold progress
  simp only
  split
  · exact endHalf_stands _ sense (s := s.onField _) h
  · exact h

theorem cutWindow_stands {s : State} (h : verdictHeld item v s) : verdictHeld item v (cutWindow s) := by
  unfold cutWindow
  split
  · exact h
  · exact windowEnd_stands (completeSweep_stands _ _ h)

theorem windowAtRound_stands (how : RoundHow) (sense : DriveSense) {s : State} (h : verdictHeld item v s) :
    verdictHeld item v (windowAtRound how sense s) := by
  unfold windowAtRound
  split
  · exact firstHalf_stands _ sense (clearMarks_stands (s := (s.onAccess _).onAccess _) h)
  · exact h

theorem closeWindow_stands (reception : Reception) (sense : DriveSense) {s : State}
    (tracked : ∃ x ∈ s.track.table, x.item = item) (h : verdictHeld item v s) :
    verdictHeld item v (closeWindow reception sense s) := by
  unfold closeWindow
  split
  · exact h
  · split
    · exact h
    · exact progress_stands _ _ _ sense (passRead_stands _ _ _ tracked h)

theorem endCall_stands (reception : Reception) (sense : DriveSense) {s : State}
    (tracked : ∃ x ∈ s.track.table, x.item = item) (h : verdictHeld item v s) :
    verdictHeld item v (endCall reception sense s) := by
  unfold endCall
  split
  · exact h
  · split
    · exact h
    · split
      · exact h
      · exact progress_stands _ _ _ sense (passRead_stands _ _ _ tracked h)

theorem limitSweep_stands (sense : DriveSense) {s : State} (h : verdictHeld item v s) :
    verdictHeld item v (limitSweep sense s) := by
  unfold limitSweep
  split
  · exact h
  · exact endHalf_stands _ sense h

end

end Sys2Proof.Machine
end

section
/-! PROOFS. A verdict once given stands, whatever the command (O9). -/

namespace Sys2Proof.Machine

section
variable {item : ItemCode} {v : VerdictRecord}

/-! ## Notices of other stations (R31, R74) -/

theorem takeSighting_stands (l : LaneSide) (e : Sighting) {s : State} (h : verdictHeld item v s) :
    verdictHeld item v (takeSighting l e s) := by
  unfold takeSighting
  simp only
  split
  · refine verdictHeld_records h (updTrack_track _ _ s) fun y _ named => ?_
    cases l <;> exact ⟨named, fun _ => rfl⟩
  · refine verdictHeld_subset h ?_
    rw [onTrack_track]
    split <;> exact .refl _

theorem takeVerdictEntry_stands (e : VerdictEntry) {s : State} (h : verdictHeld item v s) :
    verdictHeld item v (takeVerdictEntry e s) := by
  unfold takeVerdictEntry
  split
  · exact verdictHeld_records h (updTrack_track _ _ s) fun _ _ named => ⟨named, fun _ => rfl⟩
  · exact h

theorem dispatchNotice_stands (station : Fin 16) (body : NoticeBody) {s : State} (h : verdictHeld item v s) :
    verdictHeld item v (dispatchNotice station body s) := by
  cases body with
  | SIGHTING es =>
    have taken : ∀ l, verdictHeld item v (es.foldl (fun s e => takeSighting l e s) s) := fun l =>
      foldl_holds_mem _ _ es (fun e _ _ hu => takeSighting_stands l e hu) h
    simp only [dispatchNotice, takeSightings]
    split
    · exact taken .left
    · split
      · exact taken .right
      · exact h
  | VERDICT es =>
    have told : verdictHeld item v (es.foldl (fun s e => takeVerdictEntry e s) s) :=
      foldl_holds_mem _ _ es (fun e _ _ hu => takeVerdictEntry_stands e hu) h
    simp only [dispatchNotice, takeVerdicts]
    split
    · exact foldl_holds_mem _ _ es (fun _ _ _ hu => verdictHeld_frame hu (by simp)) told
    · exact told
  | EXCUSE es => exact foldl_holds_mem _ _ es (fun _ _ _ hu => verdictHeld_frame hu (by simp)) h

theorem receiveSlot_stands (data : List Bool) {s : State} (h : verdictHeld item v s) :
    verdictHeld item v (receiveSlot data s) := by
  unfold receiveSlot checkNotice
  split
  · exact h
  · split
    · exact h
    · split
      · exact h
      · exact dispatchNotice_stands _ _ h

theorem slotEndSynced_stands (data : List Bool) {s : State} (h : verdictHeld item v s) :
    verdictHeld item v (slotEndSynced data s) := by
  have heard : ∀ u : State, u.track = s.track → verdictHeld item v (receiveSlot data u) := fun u track =>
    receiveSlot_stands data (verdictHeld_frame h track)
  unfold slotEndSynced
  simp only
  split
  · exact heard _ (by simp)
  · exact heard _ (by simp)
  · exact verdictHeld_frame h (by simp)
  · exact verdictHeld_frame h (by simp)

theorem endNotice_stands (slot : Fin 24) (levels : List Bool) {s : State} (h : verdictHeld item v s) :
    verdictHeld item v (endNotice slot levels s) := by
  unfold endNotice
  simp only
  split
  · split
    · split
      · exact verdictHeld_frame h (by simp [putTimer])
      · exact h
    · split
      · exact slotEndSynced_stands _ (s := putTimer _ s) h
      · exact receiveSlot_stands _ (s := putTimer _ s) h
  · exact h

/-! ## DORMANT entry, the host and the round start -/

theorem dormantEntry_stands (s : State) : verdictHeld item v (dormantEntry s) :=
  verdictHeld_empty (by simp [dormantEntry_eq, rested])

theorem pendingTest_stands {s : State} (h : verdictHeld item v s) : verdictHeld item v (pendingTest s) := by
  unfold pendingTest
  split
  · exact dormantEntry_stands s
  · exact h

theorem quietMinuteTurn_stands {s : State} (h : verdictHeld item v s) : verdictHeld item v (quietMinuteTurn s) := by
  unfold quietMinuteTurn
  simp only
  split
  · split
    · exact dormantEntry_stands _
    · exact h
  · exact h

theorem dormantAdvance_stands {s : State} (h : verdictHeld item v s) : verdictHeld item v (dormantAdvance s) := by
  unfold dormantAdvance
  split
  · split
    · refine pendingTest_stands ?_
      split
      · exact quietMinuteTurn_stands h
      · exact h
    · exact h
  · exact h

theorem verdictHeld_keptByHost : KeptByHost (verdictHeld item v) where
  keepsPort s t same _ h := by rw [same]; exact h
  keepsWake _ _ h := verdictHeld_frame h (by simp)
  keepsBeams s t same h := by rw [same]; exact h
  keepsParam _ _ _ h := h
  keepsUnpend _ h := h
  keepsExcuses _ _ h := h
  keepsNotice _ _ _ h := verdictHeld_frame h (by simp)
  keepsHush _ _ h := verdictHeld_frame h (by simp)
  keepsSound s t same h := by rw [same]; exact h
  keepsRest s _ := dormantEntry_stands s

theorem roundTask_stands (how : RoundHow) (sense : DriveSense) (u : RoundTask) {s : State} (h : verdictHeld item v s) :
    verdictHeld item v (roundTask how sense u s) := by
  cases u
  case windowEnd => exact cutWindow_stands h
  case trackExpiry => exact expireTracks_stands h
  case dormantTimer => exact dormantAdvance_stands h
  case windowStart => exact windowAtRound_stands how sense h
  case cacheAgeing => exact h
  case beamsBroken =>
    simp only [roundTask, beamsAtRound]
    split <;> exact h
  all_goals exact verdictHeld_frame h (by simp [roundTask])

theorem roundStart_stands (how : RoundHow) (timer : Nat) (input : RoundInput) {s : State} (h : verdictHeld item v s) :
    verdictHeld item v (roundStart how timer input s) :=
  roundStart_keeps (verdictHeld item v) how timer input (fun _ h => h) (fun u _ h => roundTask_stands how _ u h)
    (fun _ _ _ h => h) h

/-! ## The commands of line and beams -/

theorem endMark_stands (began length : Nat) (input : RoundInput) {s : State} (h : verdictHeld item v s) :
    verdictHeld item v (endMark began length input s) := by
  unfold endMark
  simp only
  split
  · exact h
  · split
    · split
      · exact roundStart_stands _ _ _ (verdictHeld_frame h (by simp [runEnds]))
      · exact roundStart_stands _ _ _ (s := releaseDriver (runEnds s)) h
    · split
      · exact roundStart_stands _ _ _ (s := (runEnds s).onLine _) h
      · exact h

theorem expireTimer_stands (input : RoundInput) {s : State} (h : verdictHeld item v s) :
    verdictHeld item v (expireTimer input s) := by
  unfold expireTimer
  split
  · split
    · exact h
    · exact roundStart_stands _ _ _ (s := s.onLine _) h
  · split
    · exact roundStart_stands _ _ _ h
    · exact h

theorem startIfDue_stands (timer : Nat) (input : RoundInput) {s : State} (h : verdictHeld item v s) :
    verdictHeld item v (startIfDue timer input s) := by
  unfold startIfDue
  split
  · exact roundStart_stands _ _ _ h
  · exact h

theorem handBeams_stands (j : Fin 16) (o : SlotOutcome) {s : State} (h : verdictHeld item v s) :
    verdictHeld item v (handBeams j o s) := by
  unfold handBeams
  split <;> exact h

theorem slotEnd_stands (j : Fin 16) (o : SlotOutcome) {s : State} (h : verdictHeld item v s) :
    verdictHeld item v (slotEnd j o s) := by
  unfold slotEnd
  split
  · refine verdictHeld_frame (s := if takesRow s then _ else _) ?_ (handCalm_frame j _ _).2.1
    split
    · exact handBeams_stands j o (verdictHeld_frame h (by simp))
    · exact h
  · exact h

theorem beamBreak_stands {s : State} (h : verdictHeld item v s) : verdictHeld item v (beamBreak s) := by
  unfold beamBreak
  simp only
  split
  · exact verdictHeld_subset h (by simp)
  · exact h

theorem sampleBeams_stands (hall street : Beam) {s : State} (h : verdictHeld item v s) :
    verdictHeld item v (sampleBeams hall street s) := by
  unfold sampleBeams
  simp only
  split
  · split
    · exact h
    · split
      · exact beamBreak_stands (s := (s.onBeams _).onBeams _) h
      · exact h
  · exact h

/-! ## Every command -/

/-- Every command keeps the verdict of a tracked item: a host frame by `verdictHeld_keptByHost`, a round start and a field window
by the lemmas above, a reset by its empty table; the others leave the table. -/
theorem effect_stands (c : Instr) {s : State} (tracked : ∃ x ∈ s.track.table, x.item = item) (h : verdictHeld item v s) :
    verdictHeld item v (effect c s) := by
  have host := verdictHeld_keptByHost (item := item) (v := v)
  have same : ∀ {t : State}, t.track = s.track → verdictHeld item v t := verdictHeld_frame h
  cases frame : hostFrameOf c with
  | some f => rw [effect_hostFrame frame]; exact host.completeFrame_keeps f h
  | none =>
    cases c <;> simp only [hostFrameOf, reduceCtorEq] at frame
    case powerOnHold source => exact h
    case powerOn last pins => exact verdictHeld_empty rfl
    case markEnd began length input => exact endMark_stands began length input h
    case roundTimerExpiry input => exact expireTimer_stands input h
    case followingTimeout input =>
      simp only [effect, timeOutFollowing]
      split
      · exact roundStart_stands _ _ _ h
      · exact h
    case startMarkSend line =>
      simp only [effect, reachRoundEnd]
      split <;> exact h
    case calmEntry => exact same (calmTest_frame s).2.1
    case trackExpiry => exact expireTracks_stands h
    case cacheAgeing => exact h
    case staleNotice => exact h
    case minuteBoundary =>
      simp only [effect]
      split <;> exact h
    case soundLimitExpiry lane =>
      simp only [effect]
      split
      · exact same (hushLane_frame lane _ s).2.1
      · exact h
    case quietMinute =>
      simp only [effect]
      split
      · exact pendingTest_stands (quietMinuteTurn_stands h)
      · exact h
    case listenTimeout =>
      simp only [effect]
      split <;> exact h
    case lineStuck timer input =>
      simp only [effect, stickLine]
      split
      · exact startIfDue_stands timer input (same (by simp))
      · exact h
    case lineStuckTimingFree timer input =>
      simp only [effect, freeTiming]
      split
      · exact startIfDue_stands timer input (same (by simp))
      · exact h
    case loneRecovery =>
      simp only [effect, leaveLone]
      split
      · exact same (by simp [lineQuiet])
      · exact h
    case timingFollowingRestored =>
      simp only [effect, followAgain]
      split
      · exact same (by simp [lineQuiet])
      · exact h
    case slotReceived station bits => exact slotEnd_stands station _ h
    case ownSlotReadback bits =>
      simp only [effect, readBackOwn]
      (repeat' split) <;> exact same (by simp [putClashMark])
    case requestFieldEnd levels =>
      simp only [effect, endRequests]
      split <;> exact h
    case noticeSlotStart slot =>
      simp only [effect, startNotice]
      (repeat' split) <;> exact h
    case noticeSlotEnd slot levels => exact endNotice_stands slot levels h
    case replyWindowEnd reception sense => exact closeWindow_stands reception sense tracked h
    case followCallEnd reception sense => exact endCall_stands reception sense tracked h
    case halfSweepTimeLimit sense => exact limitSweep_stands sense h
    case sounderEntryEnd =>
      simp only [effect, entryEnd]
      split <;> exact h
    case sounderEndMarkerRecheck =>
      simp only [effect, recheck]
      split <;> exact h
    case flashToggle lane =>
      simp only [effect, toggleFlash]
      (repeat' split) <;> exact same (by simp)
    case beamChange hall street => exact sampleBeams_stands hall street h
    case clearPress =>
      simp only [effect, sampleClear]
      split <;> exact same (by simp)
    case hostFrameBad bytes => exact host.receiveBytes_keeps bytes h
    case hostByteGapTimeout before late =>
      exact host.receiveByte_keeps late (host.byteGap_keeps (host.receiveBytes_keeps before h))
    case responseSent pins =>
      exact host.responseEnd_keeps pins (fun _ _ => verdictHeld_empty rfl)
        (fun u _ => verdictHeld_empty (by simp [engineReset])) h
    case reportFrameSent => exact host.reportEnd_keeps h
    case runTooShort =>
      simp only [effect, sendAfterRun]
      split <;> exact h
    case beamSample hall street => exact sampleBeams_stands hall street h
    case clearSample pressed =>
      simp only [effect, sampleClear]
      split <;> exact same (by simp)
    case sounderSample =>
      simp only [effect, giveSample, entryEnd, recheck]
      (repeat' split) <;> exact h

end

/-- Where the items stand once, the verdict of a track is that of every record of its item. -/
theorem verdictHeld_of_nodup {s : State} {x : Track} {v : VerdictRecord} (once : (s.track.table.map Track.item).Nodup)
    (mem : x ∈ s.track.table) (given : x.verdict = some v) : verdictHeld x.item v s := fun y other same => by
  rw [List.inj_on_of_nodup_map once other mem same]
  exact given

/-- Settles O9: the verdict is that of every record of its item, and each command keeps it there while the item is tracked. -/
theorem verdictStands : Obligations.VerdictStands := by
  unfold Obligations.VerdictStands
  intro s t x y v once stepped mem stays same given
  have held := verdictHeld_of_nodup once mem given
  obtain ⟨-, rfl⟩ | ⟨c, rest, -, rfl⟩ := step_cases stepped
  · exact held y stays same
  · split at stays
    · exact held y stays same
    · exact effect_stands c (s := s.withPending rest) ⟨x, mem, rfl⟩ held y stays same

end Sys2Proof.Machine
end

section
/-! PROOFS. The excuse commands, the full outbox and the order of the excuse list (O59). -/

namespace Sys2Proof.Machine

/-! ## The item that a payload carries (R200) -/

@[simp] theorem beBytes_length (n x : Nat) : (beBytes n x).length = n := by simp [beBytes]

/-- The last byte of a number, and the bytes above it. -/
theorem beBytes_succ (n x : Nat) : beBytes (n + 1) x = beBytes n (x / 256) ++ [BitVec.ofNat 8 x] := by
  have upper : ∀ i ∈ List.range n, BitVec.ofNat 8 (x / 2 ^ (8 * (n + 1 - 1 - i))) =
      BitVec.ofNat 8 (x / 256 / 2 ^ (8 * (n - 1 - i))) := fun i mem => by
    have below := List.mem_range.mp mem
    have place : 8 * (n + 1 - 1 - i) = 8 + 8 * (n - 1 - i) := by omega
    rw [place, Nat.pow_add, Nat.div_div_eq_div_mul]
  rw [beBytes, List.range_succ, List.map_append, List.map_congr_left upper, List.map_singleton, ← beBytes]
  simp

theorem natOfBytes_concat (bytes : List Byte) (b : Byte) : natOfBytes (bytes ++ [b]) = 256 * natOfBytes bytes + b.toNat := by
  simp [natOfBytes]

/-- A number spelled in bytes reads back. -/
theorem natOfBytes_beBytes (n x : Nat) : natOfBytes (beBytes n x) = x % 256 ^ n := by
  induction n generalizing x with
  | zero => simp [beBytes, natOfBytes, Nat.mod_one]
  | succ n ih =>
    have byte : (BitVec.ofNat 8 x).toNat = x % 256 := BitVec.toNat_ofNat x 8
    rw [beBytes_succ, natOfBytes_concat, ih, byte, Nat.pow_succ', Nat.mod_mul]
    omega

/-- The item that opens a payload is the one spelled there. -/
theorem payloadItem_beBytes (item : ItemCode) (more : List Byte) : payloadItem (beBytes 8 item.toNat ++ more) = item := by
  have opens : (beBytes 8 item.toNat ++ more).take 8 = beBytes 8 item.toNat := List.take_left' (beBytes_length 8 _)
  have wide : item.toNat % 256 ^ 8 = item.toNat := Nat.mod_eq_of_lt item.isLt
  rw [payloadItem, opens, natOfBytes_beBytes, wide, BitVec.ofNat_toNat, BitVec.setWidth_eq]

/-- The byte behind the item. -/
theorem payloadByte_afterItem (item : ItemCode) (b : Byte) : payloadByte (beBytes 8 item.toNat ++ [b]) 8 = b := by
  simp [payloadByte, List.getD_eq_getElem?_getD]

/-! ## The commands with room in the outbox (R77 to R79, R81) -/

/-- The part with the excuse list `list` and an EXCUSE notice of an item queued last. -/
def excuseSpread (list : List ExcuseEntry) (item : ItemCode) (life : Byte) (s : State) : State :=
  { s with
    verdict := { s.verdict with excuses := list }
    notices :=
      { s.notices with
        outbox := s.notices.outbox ++ [{ body := .EXCUSE [{ item := item, life := life }], built := s.line.round }] } }

/-- EXCUSE-ADD, where the list becomes `list`. -/
theorem actExcuseAdd_room {item : ItemCode} {life : Byte} {list : List ExcuseEntry} {s : State}
    (applied : applyExcuse item life.toNat s = s.onVerdict fun v => { v with excuses := list })
    (room : s.notices.outbox.length < 8) :
    actExcuseAdd item life s =
      { state := excuseSpread list item life s, answer := .DONE [BitVec.ofNat 8 list.length] } := by
  have queued := queueNotice_room (body := .EXCUSE [{ item := item, life := life }])
    (s := s.onVerdict fun v => { v with excuses := list }) room
  rw [actExcuseAdd, applied, queued]
  rfl

/-- EXCUSE-DROP. -/
theorem actExcuseDrop_room (item : ItemCode) {s : State} (room : s.notices.outbox.length < 8) :
    actExcuseDrop item s =
      { state := excuseSpread (s.verdict.excuses.filter fun e => e.item ≠ item) item 0 s
        answer := .DONE [BitVec.ofNat 8 (excused s item).toNat,
          BitVec.ofNat 8 (s.verdict.excuses.filter fun e => e.item ≠ item).length] } := by
  have queued := queueNotice_room (body := .EXCUSE [{ item := item, life := 0 }]) (s := removeExcuse item s) room
  rw [actExcuseDrop, queued]
  rfl

/-- EXCUSE-ADD as it is taken. -/
theorem excuseAdd_exec {item : ItemCode} {life : Byte} {s : State} {t : Taken} (taken : takesCommand s)
    (acts : actExcuseAdd item life (claimed { code := 10, payload := beBytes 8 item.toNat ++ [life] } s) = t) :
    exec (.excuseAdd (beBytes 8 item.toNat ++ [life])) s =
      .next (respond { frame := answerFrame 10 t.answer, reset := t.reset } t.state) := by
  have own : (beBytes 8 item.toNat ++ [life]).length = 9 := by simp
  rw [exec_running _ taken.1, effect, payloadItem_beBytes, payloadByte_afterItem, commandFrame_acts taken own (by decide) acts]

/-- EXCUSE-DROP as it is taken. -/
theorem excuseDrop_exec {item : ItemCode} {s : State} {t : Taken} (taken : takesCommand s)
    (acts : actExcuseDrop item (claimed { code := 11, payload := beBytes 8 item.toNat } s) = t) :
    exec (.excuseDrop (beBytes 8 item.toNat)) s =
      .next (respond { frame := answerFrame 11 t.answer, reset := t.reset } t.state) := by
  have named : payloadItem (beBytes 8 item.toNat) = item := by simpa using payloadItem_beBytes item []
  rw [exec_running _ taken.1, effect, named, commandFrame_acts taken (beBytes_length 8 _) (by decide) acts]

/-- The part that an EXCUSE-DROP queues its notice on: its response claimed, the item removed. -/
def excuseDropped (item : ItemCode) (s : State) : State :=
  removeExcuse item (claimed { code := 11, payload := beBytes 8 item.toNat } s)

/-- What the notice of an EXCUSE-DROP makes of the outbox and the error counts stays so (R81). -/
theorem excuseDrop_queues (item : ItemCode) {s : State} (taken : takesCommand s) :
    let queued := queueNotice (.EXCUSE [{ item := item, life := 0 }]) (excuseDropped item s)
    ∃ t, exec (.excuseDrop (beBytes 8 item.toNat)) s = .next t ∧ t.notices = queued.notices ∧
      t.host.errors = queued.host.errors :=
  ⟨_, excuseDrop_exec taken rfl, rfl, rfl⟩

/-! ## The list after an add (R77 to R79) -/

theorem applyExcuse_some {life : Byte} (item : ItemCode) (s : State) (some_life : life ≠ 0) :
    applyExcuse item life.toNat s = addExcuse item life.toNat s :=
  if_neg fun zero => some_life (BitVec.eq_of_toNat_eq zero)

/-- An add of an item not held, with room for it (R77). -/
theorem addExcuse_room {item : ItemCode} (life : Nat) {s : State} (absent : ∀ x ∈ s.verdict.excuses, x.item ≠ item)
    (room : s.verdict.excuses.length < 64) :
    addExcuse item life s =
      s.onVerdict fun v => { v with excuses := s.verdict.excuses ++ [{ item := item, life := life }] } := by
  simp only [addExcuse_new life absent, State.onVerdict, room, if_true]

/-- An add of an item not held to a full list: the entry that expires soonest gives way (R78). -/
theorem addExcuse_full {item : ItemCode} (life : Nat) {s : State} {before rest : List ExcuseEntry} {x : ExcuseEntry}
    (absent : ∀ x ∈ s.verdict.excuses, x.item ≠ item) (full : s.verdict.excuses.length = 64)
    (once : (s.verdict.excuses.map ExcuseEntry.item).Nodup) (parted : s.verdict.excuses = before ++ x :: rest)
    (sooner : ∀ e ∈ before, x.life < e.life) (noSooner : ∀ e ∈ rest, x.life ≤ e.life) :
    addExcuse item life s =
      s.onVerdict fun v => { v with excuses := before ++ rest ++ [{ item := item, life := life }] } := by
  have noRoom : ¬s.verdict.excuses.length < 64 := by omega
  have dropped : dropSoonest s.verdict.excuses = before ++ rest := by
    rw [parted]
    exact dropSoonest_split (parted ▸ once) sooner noSooner
  simp only [addExcuse_new life absent, State.onVerdict, noRoom, if_false, dropped]

/-! ## The full outbox (R106, R107) -/

theorem isSighting_iff (n : Notice) : isSighting n = true ↔ ∃ es, n.body = .SIGHTING es := by
  cases h : n.body <;> simp [isSighting, h]

/-- The in-flight head and the loose notices, by the length of the head (R106). -/
theorem outbox_parted {q : NoticeQueue} {head loose : List Notice} (parted : q.outbox = head ++ loose)
    (flight : head.length = if q.inFlight = .NONE then 0 else 1) : boundNotices q = head ∧ looseNotices q = loose := by
  have bound : (boundNotices q).length = head.length := by
    rw [flight, boundNotices]
    split
    · rfl
    · rename_i flying
      rw [if_neg flying] at flight
      simp [parted, flight]
  exact List.append_inj ((boundNotices_looseNotices q).trans parted) bound

/-- A notice queued on a full outbox: the oldest SIGHTING not in flight gives way to it (R107). -/
theorem queueNotice_displaces {body : NoticeBody} {s : State} {head before after : List Notice} {n : Notice}
    (full : s.notices.outbox.length = 8) (parted : s.notices.outbox = head ++ before ++ n :: after)
    (flight : head.length = if s.notices.inFlight = .NONE then 0 else 1) (others : ∀ m ∈ before, isSighting m = false)
    (sighting : isSighting n = true) :
    queueNotice body s =
      s.onNotices fun q =>
        { q with outbox := head ++ before ++ after ++ [{ body := body, built := s.line.round }] } := by
  obtain ⟨bound, loose⟩ := outbox_parted (parted.trans (List.append_assoc ..)) flight
  have noRoom : ¬s.notices.outbox.length < Config.outboxCapacity := by rw [full]; decide
  have found : (before ++ n :: after).any isSighting = true := by simp [sighting]
  have erased : (before ++ n :: after).eraseP isSighting = before ++ after := by
    rw [List.eraseP_append_right _ (by simpa using others), List.eraseP_cons_of_pos sighting]
  simp only [queueNotice, noRoom, if_false, loose, found, if_true, State.onNotices, bound, erased, List.append_assoc, State.now]

/-- With no SIGHTING but in flight, the notice is discarded and counted (R107). -/
theorem queueNotice_discards {body : NoticeBody} {s : State} {head loose : List Notice}
    (full : s.notices.outbox.length = 8) (parted : s.notices.outbox = head ++ loose)
    (flight : head.length = if s.notices.inFlight = .NONE then 0 else 1) (others : ∀ m ∈ loose, isSighting m = false) :
    queueNotice body s = outboxDropped s := by
  obtain ⟨-, rest⟩ := outbox_parted parted flight
  have noRoom : ¬s.notices.outbox.length < Config.outboxCapacity := by rw [full]; decide
  have none : (looseNotices s.notices).any isSighting = false := by simpa [rest] using others
  simp only [queueNotice, noRoom, if_false, none, Bool.false_eq_true]

/-! ## The order of R76 -/

/-- A list in order of soonest expiry (R76). -/
def soonestFirst (l : List ExcuseEntry) : Prop := l.Pairwise fun a b => a.life ≤ b.life

theorem insertByLife_soonestFirst (e : ExcuseEntry) {l : List ExcuseEntry} (h : soonestFirst l) :
    soonestFirst (insertByLife e l) := by
  induction l with
  | nil => exact List.pairwise_singleton _ _
  | cons x xs ih =>
    obtain ⟨first, rest⟩ := List.pairwise_cons.mp h
    simp only [insertByLife]
    split
    · rename_i noSooner
      refine List.pairwise_cons.mpr ⟨fun y mem => ?_, ih rest⟩
      rcases List.mem_cons.mp ((insertByLife_perm e xs).mem_iff.mp mem) with rfl | mem
      · exact noSooner
      · exact first y mem
    · rename_i sooner
      refine List.pairwise_cons.mpr ⟨fun y mem => ?_, h⟩
      rcases List.mem_cons.mp mem with rfl | mem
      · omega
      · have := first y mem
        omega

/-- An entry comes behind all those of its life, and leaves the others in their order. -/
theorem insertByLife_filter (e : ExcuseEntry) (k : Nat) {l : List ExcuseEntry} (h : soonestFirst l) :
    (insertByLife e l).filter (fun x => x.life = k) =
      l.filter (fun x => x.life = k) ++ [e].filter fun x => x.life = k := by
  induction l with
  | nil => rfl
  | cons x xs ih =>
    obtain ⟨first, rest⟩ := List.pairwise_cons.mp h
    simp only [insertByLife]
    split
    · rw [List.filter_cons, List.filter_cons, ih rest]
      split <;> rfl
    · rename_i sooner
      by_cases named : e.life = k
      · have later : ∀ y ∈ x :: xs, y.life ≠ k := fun y mem => by
          rcases List.mem_cons.mp mem with rfl | mem
          · omega
          · have := first y mem
            omega
        have none : (x :: xs).filter (fun y => y.life = k) = [] := List.filter_eq_nil_iff.mpr (by simpa using later)
        rw [List.filter_cons, none]
        simp [named]
      · simp [List.filter_cons, named]

theorem excuseOrder_concat (stored : List ExcuseEntry) (e : ExcuseEntry) :
    excuseOrder (stored ++ [e]) = insertByLife e (excuseOrder stored) := by
  simp [excuseOrder]

theorem excuseOrder_soonestFirst (stored : List ExcuseEntry) : soonestFirst (excuseOrder stored) := by
  induction stored using List.reverseRecOn with
  | nil => exact List.Pairwise.nil
  | append_singleton stored e ih =>
    rw [excuseOrder_concat]
    exact insertByLife_soonestFirst e ih

/-- The entries of one life stand in added order. -/
theorem excuseOrder_filter (stored : List ExcuseEntry) (k : Nat) :
    (excuseOrder stored).filter (fun e => e.life = k) = stored.filter fun e => e.life = k := by
  induction stored using List.reverseRecOn with
  | nil => rfl
  | append_singleton stored e ih =>
    rw [excuseOrder_concat, insertByLife_filter e k (excuseOrder_soonestFirst stored), ih, List.filter_append]

/-! ## The statement -/

/-- Settles O59: the list after each command is that of `applyExcuse`, spread by a notice that `queueNotice_room`,
`queueNotice_displaces` or `queueNotice_discards` queues; the order is built entry by entry. -/
theorem excuseCommandsAct : Obligations.ExcuseCommandsAct := by
  unfold Obligations.ExcuseCommandsAct
  refine ⟨fun item life s taken room => ?_, fun item s taken full => ?_,
    fun stored => ⟨excuseOrder_perm stored, excuseOrder_soonestFirst stored, excuseOrder_filter stored⟩⟩
  · intro bytes list holds removed entry after added dropped
    have adds : ∀ list', (∀ u : State, u.verdict = s.verdict →
        applyExcuse item life.toNat u = u.onVerdict fun v => { v with excuses := list' }) → added list' :=
      fun list' applied => excuseAdd_exec taken (actExcuseAdd_room (applied _ rfl) room)
    have drops : dropped (BitVec.ofNat 8 (excused s item).toNat) := excuseDrop_exec taken (actExcuseDrop_room item room)
    have absent : ¬holds → ∀ x ∈ list, x.item ≠ item := fun unheld x mem same => unheld ⟨x, mem, same⟩
    refine ⟨fun zero => adds _ fun u verdict => ?_, fun some_life held => adds _ fun u verdict => ?_,
      fun some_life unheld fits => adds _ fun u verdict => ?_,
      fun before rest x some_life unheld filled once parted sooner noSooner => adds _ fun u verdict => ?_,
      fun held => ?_, fun unheld => ?_⟩
    · simp only [zero, removed, list, ← verdict]
      rfl
    · rw [applyExcuse_some item u some_life, addExcuse_held life.toNat (verdict ▸ held)]
      simp only [list, ← verdict]
      rfl
    · rw [applyExcuse_some item u some_life, addExcuse_room life.toNat (verdict ▸ absent unheld) (verdict ▸ fits), verdict]
    · rw [applyExcuse_some item u some_life]
      exact addExcuse_full life.toNat (verdict ▸ absent unheld) (verdict ▸ filled) (verdict ▸ once) (verdict ▸ parted)
        sooner noSooner
    · have listed : excused s item = true := by simpa [excused] using held
      rwa [listed] at drops
    · have unlisted : excused s item = false := by simpa [excused] using absent unheld
      rwa [unlisted] at drops
  · intro sighting notice
    have named : ∀ m, isSighting m = true ↔ sighting m := isSighting_iff
    have unnamed : ∀ l : List Notice, (∀ m ∈ l, ¬sighting m) → ∀ m ∈ l, isSighting m = false :=
      fun l others m mem => Bool.eq_false_iff.mpr fun yes => others m mem ((named m).mp yes)
    obtain ⟨t, runs, notices, errors⟩ := excuseDrop_queues item taken
    refine ⟨t, runs, fun head before after n parted flight others some_sighting => ?_,
      fun head loose parted flight others => ?_⟩
    · rw [notices, errors, queueNotice_displaces (s := excuseDropped item s) full parted flight (unnamed before others)
        ((named n).mpr some_sighting)]
      exact ⟨rfl, rfl⟩
    · rw [notices, errors, queueNotice_discards (s := excuseDropped item s) full parted flight (unnamed loose others)]
      exact ⟨rfl, rfl⟩

end Sys2Proof.Machine
end

section
/-! PROOFS. Marks, the own timer and the stuck line: the round starts they bring (O11, O12, O13, O17, O18). -/

namespace Sys2Proof.Machine

/-! ## Marks (R87, R89 to R91) -/

/-- A pedestal that takes start marks and framing errors: SYNCED, and SILENT or CLASHED with timing FOLLOWING. -/
theorem followsMarks_of {s : State}
    (state : s.line.state = .SYNCED ∨ ((s.line.state = .SILENT ∨ s.line.state = .CLASHED) ∧ s.line.timing = .FOLLOWING)) :
    followsMarks s = true := by
  rcases state with synced | ⟨silent | clashed, following⟩ <;> simp [followsMarks, *]

/-- A pedestal that follows marks does not keep its own time. -/
theorem keepsOwnTime_of_followsMarks {s : State} (follows : followsMarks s = true) : keepsOwnTime s = false := by
  unfold followsMarks at follows
  unfold keepsOwnTime
  cases state : s.line.state <;> simp_all

/-- The part when a mark that is followed ends: its dominant run over, and the driver released (R120). -/
def markReleased (s : State) : State :=
  { s with line := { s.line with startMark := .idle, dominantRun := 0 }, notices := { s.notices with inFlight := .NONE } }

theorem releaseDriver_runEnds {s : State} (follows : followsMarks s = true) : releaseDriver (runEnds s) = markReleased s := by
  simp only [runEnds, keepsOwnTime_of_followsMarks follows]
  rfl

/-- A mark in the quiet tail of a pedestal that follows marks. -/
theorem endMark_startMark {began length : Nat} {s : State} (input : RoundInput) (follows : followsMarks s = true)
    (long : 8 ≤ length) (late : 17572 ≤ began) :
    endMark began length input s = roundStart .startMark length input (markReleased s) := by
  rw [endMark, if_neg (Nat.not_lt.mpr long), if_pos follows, releaseDriver_runEnds follows]
  exact if_neg (Nat.not_lt.mpr late)

/-- A mark before the quiet tail of a pedestal that follows marks. -/
theorem endMark_framing {began length : Nat} {s : State} (input : RoundInput) (follows : followsMarks s = true)
    (long : 8 ≤ length) (early : began < 17572) :
    endMark began length input s = roundStart .framing length input (framingError began (markReleased s)) := by
  rw [endMark, if_neg (Nat.not_lt.mpr long), if_pos follows, releaseDriver_runEnds follows]
  exact if_pos early

/-- Settles O11: the round start that the mark brings is one of the part with its driver released. -/
theorem startMarkStartsRound : Obligations.StartMarkStartsRound := by
  unfold Obligations.StartMarkStartsRound
  intro began length input s running state long late
  rw [exec_running _ running, effect, endMark_startMark input (followsMarks_of state) long late]
  exact ⟨_, rfl, roundStart_begun _ _ _ _⟩

/-- Settles O12: a mark is followed by LISTEN alone of the states that do not class marks. -/
theorem marksOutsideSync : Obligations.MarksOutsideSync := by
  unfold Obligations.MarksOutsideSync
  refine ⟨fun began length input s running listen long => ?_,
    fun began length input s running => ⟨fun short => ?_, fun long state => ?_⟩⟩
  · have joins : endMark began length input s =
        roundStart .joined length input { s with line := { s.line with state := .SYNCED, dominantRun := 0 } } := by
      simp only [endMark, Nat.not_lt.mpr long, followsMarks, listen, runEnds, keepsOwnTime]
      rfl
    rw [exec_running _ running, effect, joins]
    exact ⟨_, rfl, roundStart_begun _ _ _ _⟩
  · rw [exec_running _ running, effect, endMark, if_pos short]
  · have unclassed : followsMarks s = false ∧ s.line.state ≠ .LISTEN ∧ keepsOwnTime s = true := by
      rcases state with lone | ⟨silent | clashed, free⟩ <;> simp [followsMarks, keepsOwnTime, *]
    obtain ⟨notFollowed, notListen, ownTime⟩ := unclassed
    rw [exec_running _ running, effect, endMark, if_neg (Nat.not_lt.mpr long), notFollowed, if_neg Bool.false_ne_true,
      if_neg notListen, runEnds, ownTime]
    rfl

/-! ## A round that carries no window (R1, R90, R127) -/

/-- What changes of the supply block and a DORMANT entry keep, the dormant timer's part keeps (R191). -/
theorem dormantAdvance_keeps (P : State → Prop) (supply : ∀ f s, P s → P (s.onSupply f)) (rest : ∀ s, P s → P (dormantEntry s))
    {s : State} (h : P s) : P (dormantAdvance s) := by
  have pending : ∀ m, P m → P (pendingTest m) := fun m hm => by
    unfold pendingTest
    split
    · exact rest m hm
    · exact hm
  have minute : P (quietMinuteTurn s) := by
    simp only [quietMinuteTurn]
    split
    · split
      · exact rest _ (supply _ s h)
      · exact supply _ _ (supply _ s h)
    · exact supply _ s h
  unfold dormantAdvance
  split
  · split
    · refine pending _ ?_
      split
      · exact minute
      · exact supply _ s h
    · exact supply _ s h
  · exact h

/-- A DORMANT entry leaves no window, and makes no pedestal LONE (R103, R192). -/
theorem dormantEntry_windowless (s : State) :
    (dormantEntry s).field.window = none ∧ (dormantEntry s).line.state ≠ .LONE := by
  rw [dormantEntry_eq]
  refine ⟨rfl, ?_⟩
  simp only [rested]
  split <;> simp

/-- No part of a round start makes a pedestal LONE. -/
theorem roundTask_notLone (how : RoundHow) (sense : DriveSense) (u : RoundTask) {s : State} (h : s.line.state ≠ .LONE) :
    (roundTask how sense u s).line.state ≠ .LONE := by
  cases u
  case dormantTimer =>
    exact dormantAdvance_keeps (fun m => m.line.state ≠ .LONE) (fun _ _ hm => hm)
      (fun m _ => (dormantEntry_windowless m).2) h
  all_goals simpa [roundTask] using h

/-- A part of a round start by no start mark, of a pedestal that is not LONE, begins no window. -/
theorem roundTask_windowless {how : RoundHow} (noMark : how ≠ .startMark) (sense : DriveSense) (u : RoundTask) {s : State}
    (idle : s.field.window = none) (notLone : s.line.state ≠ .LONE) : (roundTask how sense u s).field.window = none := by
  cases u
  case dormantTimer =>
    exact dormantAdvance_keeps (fun m => m.field.window = none) (fun _ _ hm => hm)
      (fun m _ => (dormantEntry_windowless m).1) idle
  case windowEnd => simp [roundTask, cutWindow, idle]
  case windowStart => simpa [roundTask, windowAtRound, noMark, notLone] using idle
  all_goals simpa [roundTask] using idle

/-- A round start by no start mark, of a pedestal that is not LONE, ends the window in flight and begins none (R1, R2). -/
theorem roundStart_windowless {how : RoundHow} (noMark : how ≠ .startMark) (timer : Nat) (input : RoundInput) {s : State}
    (notLone : s.line.state ≠ .LONE) : (roundStart how timer input s).field.window = none := by
  obtain ⟨l, r, order, -, -⟩ := roundOrder_split input .windowEnd
  have before : (roundTasks how input.sense l (s.onLine fun u => { u with timer := timer, round := u.round + 1 })).line.state ≠
      .LONE :=
    foldl_holds_mem (fun m => m.line.state ≠ .LONE) _ l (fun u _ _ => roundTask_notLone how input.sense u) notLone
  have ended : ∀ m : State, (cutWindow m).field.window = none := fun m => by
    unfold cutWindow
    split
    · assumption
    · rw [windowEnd_field]
  have after : ∀ m, m.field.window = none ∧ m.line.state ≠ .LONE → (roundTasks how input.sense r m).field.window = none :=
    fun m h => (foldl_holds_mem (fun m => m.field.window = none ∧ m.line.state ≠ .LONE) _ r
      (fun u _ _ hm => ⟨roundTask_windowless noMark input.sense u hm.1 hm.2, roundTask_notLone how input.sense u hm.2⟩) h).1
  simp only [roundStart, missSlots_eq, order, List.foldl_append, List.foldl_cons]
  exact after _ ⟨ended _, roundTask_notLone how input.sense .windowEnd before⟩

/-- Without a start mark and with no DORMANT entry due, a round start keeps the field class (R90, R129). -/
theorem roundStart_fieldClass {how : RoundHow} (noMark : how ≠ .startMark) (timer : Nat) (input : RoundInput) {s : State}
    (rest : restNotDue s) : (roundStart how timer input s).line.fieldClass = s.line.fieldClass := by
  have kept := roundTasks_noRest (fun m => m.line.fieldClass = s.line.fieldClass) how input.sense (roundOrder input)
    (roundOrder_nodup input)
    (fun u _ notRest m h => by
      cases u
      case dormantTimer => exact absurd rfl notRest
      case fieldClass => simpa [roundTask, fieldClassUpdate, noMark] using h
      all_goals simpa [roundTask] using h)
    (fun _ _ h => h) (s := s.onLine fun u => { u with timer := timer, round := u.round + 1 }) (fun _ => rest) rfl
  simp only [roundStart, missSlots_eq]
  exact kept

/-- A framing error, in the words of the missed slots (R90, R127). -/
theorem framingError_eq (began : Nat) (s : State) :
    framingError began s =
      { s with
        line := { s.line with slots := slotsMissed (fun n => began + 7 ≤ 31 + 16 * n) s }
        access := { s.access with grant := false, peerCalm := calmMissed (fun n => began + 7 ≤ 31 + 16 * n) s }
        host := { s.host with errors := { s.host.errors with lineErrors := satSucc s.host.errors.lineErrors } } } := by
  have slots : slotsMissed (fun n => decide (began + 7 ≤ slotLastBit n) = true) (lineError s) =
      slotsMissed (fun n => began + 7 ≤ 31 + 16 * n) s :=
    slotsMissed_congr (fun _ => decide_eq_true_iff) rfl rfl
  have calm : calmMissed (fun n => decide (began + 7 ≤ slotLastBit n) = true) (lineError s) =
      calmMissed (fun n => began + 7 ≤ 31 + 16 * n) s :=
    calmMissed_congr (fun _ => decide_eq_true_iff) rfl rfl
  rw [framingError, missSlots_eq, slots, calm]
  rfl

/-- Settles O13: the round start follows the framing error, which the missed slots spell out, and carries no window. -/
theorem framingErrorAbandonsRound : Obligations.FramingErrorAbandonsRound := by
  unfold Obligations.FramingErrorAbandonsRound
  intro began length input s running state long early
  have notLone : s.line.state ≠ .LONE := by
    rcases state with synced | ⟨silent | clashed, -⟩ <;> simp [*]
  have taken := endMark_framing input (followsMarks_of state) long early
  rw [framingError_eq] at taken
  refine ⟨_, _, (exec_running _ running).trans (congrArg _ taken), roundStart_begun _ _ _ _,
    roundStart_windowless (by decide) _ _ notLone, fun rest => roundStart_fieldClass (by decide) _ _ rest, rfl, fun j moved => ?_⟩
  have calm : (calmMissed (fun n => began + 7 ≤ 31 + 16 * n) (markReleased s))[j] =
      if withinReach s j = true ∧ began + 7 ≤ 31 + 16 * j.val then .CALM else s.access.peerCalm[j] := by
    simp only [calmMissed, Fin.getElem_fin, Vector.getElem_ofFn]
    rfl
  rw [calm] at moved ⊢
  by_cases cut : withinReach s j = true ∧ began + 7 ≤ 31 + 16 * j.val
  · exact ⟨if_pos cut, cut.1⟩
  · exact absurd (if_neg cut) moved

/-! ## The own timer (R87, R91) -/

/-- Settles O17: the timer of a pedestal that keeps its own time, of one in LISTEN, and of one that follows marks. -/
theorem ownTimerStartsRound : Obligations.OwnTimerStartsRound := by
  unfold Obligations.OwnTimerStartsRound
  refine fun input s running => ⟨fun state => ?_, fun listen before => ?_, fun timed following => ?_⟩
  · have ownTime : keepsOwnTime s = true ∧ s.line.state ≠ .LISTEN := by
      rcases state with lone | ⟨silent | clashed, free⟩ <;> simp [keepsOwnTime, *]
    rw [exec_running _ running, effect, expireTimer, if_neg ownTime.2, if_pos ownTime.1]
    exact ⟨_, rfl, roundStart_begun _ _ _ _⟩
  · have notDue : ¬ Config.listenLimit ≤ listenTimeAt s.line := Nat.not_le.mpr before
    rw [exec_running _ running, effect, expireTimer, if_pos listen, if_neg notDue]
    exact ⟨_, rfl, roundStart_begun _ _ _ _⟩
  · have due : (hasTiming s && s.line.timing = .FOLLOWING) = true := by simpa [hasTiming, following] using timed
    rw [exec_running _ running, effect, timeOutFollowing, if_pos due]
    exact ⟨_, rfl, roundStart_begun _ _ _ _⟩

/-! ## A line stuck dominant (R99, R101, R127) -/

/-- Own time begins with the timer below 20,000, or with a round start at once. -/
theorem startIfDue_cases (timer : Nat) (input : RoundInput) (m : State) :
    (timer < 20000 → startIfDue timer input m = m) ∧
      (20000 ≤ timer → RoundBegun 0 m (startIfDue timer input m)) := by
  refine ⟨fun before => if_neg (Nat.not_le.mpr before), fun due => ?_⟩
  have starts : startIfDue timer input m = roundStart .timer 0 input m := if_pos due
  exact starts ▸ roundStart_begun _ _ _ _

/-- Settles O18: the entry to own time, and the round start at once when its timer is due. -/
theorem stuckLineActs : Obligations.StuckLineActs := by
  unfold Obligations.StuckLineActs
  constructor
  · intro timer input s running state m
    have taken : (s.line.state = .SYNCED || s.line.state = .LISTEN) = true := by simpa using state
    rw [exec_running _ running, effect, stickLine, if_pos taken, loneEntry_eq]
    obtain ⟨before, due⟩ := startIfDue_cases timer input m
    exact ⟨fun h => congrArg _ (before h), fun h => ⟨_, rfl, due h⟩⟩
  · intro timer input s running state following m
    have taken : (hasTiming s && s.line.timing = .FOLLOWING) = true := by simpa [hasTiming, following] using state
    rw [exec_running _ running, effect, freeTiming, if_pos taken, freeEntry_eq]
    obtain ⟨before, due⟩ := startIfDue_cases timer input m
    exact ⟨fun h => congrArg _ (before h), fun h => ⟨_, rfl, due h⟩⟩

end Sys2Proof.Machine
end

section
/-! PROOFS. The timer at its limits and the driver (O16), the own slot read back (O28), the request field and the grant (O29). -/

namespace Sys2Proof.Machine

/-! ## The timer at its limits (R88, R91) -/

/-- The listen time ends LISTEN, told as its own command or as the third time the timer reaches 20,000. -/
theorem listen_ends {s : State} (running : heldInReset s = false) (listen : s.line.state = .LISTEN) :
    exec .listenTimeout s = .next (endListen s) ∧
      ∀ input, 60000 ≤ listenTimeAt s.line → exec (.roundTimerExpiry input) s = .next (endListen s) := by
  refine ⟨?_, fun input due => ?_⟩
  · rw [exec_running _ running]
    exact congrArg _ (if_pos listen)
  · rw [exec_running _ running, effect, expireTimer, if_pos listen]
    exact congrArg _ (if_pos due)

/-- A SYNCED pedestal at timer 20,000 begins its start mark, holds back, or begins it after a run too short. -/
theorem synced_reachesLimit {s : State} (running : heldInReset s = false) (synced : s.line.state = .SYNCED) :
    (∀ line, exec (.startMarkSend line) s =
        .next { s with
          line := { s.line with
            timer := 20000
            startMark := match line with
              | .recessive => .sending
              | .dominant => .heldBack } }) ∧
      (s.line.startMark = .heldBack →
        exec .runTooShort s = .next { s with line := { s.line with startMark := .sending, dominantRun := 0 } }) := by
  refine ⟨fun line => ?_, fun held => ?_⟩
  · rw [exec_running _ running]
    exact congrArg _ (if_pos synced)
  · have waits : (s.line.state = .SYNCED && s.line.startMark = .heldBack) = true := by simp [synced, held]
    rw [exec_running _ running]
    exact congrArg _ (if_pos waits)

/-! ## The driver (R84, R85, R92) -/

theorem mayDrive_iff (s : State) : s.mayDrive = true ↔ heldInReset s = false ∧ s.line.state = .SYNCED := by
  simp [State.mayDrive]

theorem requestLevels_length (station : Nat) : (requestLevels station).length = 20 := placeData_length _ _

theorem slotLevels_length (w : SlotWord) : (slotLevels w).length = 16 := by simp [slotLevels]

/-- Every field of a round is driven for all its bit times, or released for all of them (R84, R195). -/
theorem driven_length (s : State) :
    s.markDriven.length = 16 ∧ s.slotDriven.length = 16 ∧ s.requestDriven.length = 20 ∧ s.noticeDriven.length = 720 := by
  refine ⟨?_, ?_, ?_, ?_⟩
  · unfold State.markDriven
    split <;> rfl
  · unfold State.slotDriven
    split
    · exact slotLevels_length _
    · rfl
  · unfold State.requestDriven
    split
    · exact requestLevels_length _
    · rfl
  · unfold State.noticeDriven
    split
    · exact List.length_replicate
    · split
      · exact placeData_length _ _
      · exact List.length_replicate

/-- The bits of a number that a string spells, least significant last, read back from the end (00, 0.5). -/
theorem natOfBits_reverse_testBit (l : List Bool) (i : Nat) : (natOfBits l.reverse).testBit i = l.getD i false := by
  induction l generalizing i with
  | nil => simp [natOfBits]
  | cons b l ih =>
    rw [List.reverse_cons, natOfBits_concat]
    cases i with
    | zero => cases b <;> simp [Nat.testBit_zero]
    | succ i =>
      have half : (2 * natOfBits l.reverse + b.toNat) / 2 = natOfBits l.reverse := by
        have bit := b.toNat_lt
        omega
      rw [Nat.testBit_succ, half, ih, List.getD_cons_succ]

/-- Bit `i` of a slot as read back is the level that was sent in its bit time `i` (R97, R196). -/
theorem slotBits_getLsbD (w : SlotWord) {i : Nat} (within : i < 16) : (slotBits w).getLsbD i = (slotLevels w).getD i true := by
  have inside : i < (slotLevels w).length := by rwa [slotLevels_length]
  rw [slotBits, BitVec.getLsbD_ofNat, natOfBits_reverse_testBit, decide_eq_true within, Bool.true_and,
    List.getD_eq_getElem _ _ inside, List.getD_eq_getElem _ _ inside]

/-- Settles O16: the two limits, and the driver by whether it may drive at all. -/
theorem timerReachesLimit : Obligations.TimerReachesLimit := by
  unfold Obligations.TimerReachesLimit
  refine ⟨fun s running synced => ?_, fun input s running listen => ?_, fun s => ⟨fun notDriving => ?_, ?_⟩⟩
  · obtain ⟨reaches, afterRun⟩ := synced_reachesLimit running synced
    exact ⟨reaches .recessive, reaches .dominant, afterRun⟩
  · obtain ⟨timeout, expiry⟩ := listen_ends running listen
    exact ⟨timeout, expiry input⟩
  · have barred : s.mayDrive = false := by
      rw [Bool.eq_false_iff, ne_eq, mayDrive_iff]
      rintro ⟨running, synced⟩
      rcases notDriving with held | other
      · exact absurd held (by simp [running])
      · exact other synced
    obtain ⟨mark, slot, request, notice⟩ := driven_released barred
    refine ⟨fun b mem => ?_, by simp [State.driverInUse, barred], by simp [State.requestBit, barred]⟩
    rw [mark, slot, request, notice, List.mem_append, List.mem_append, List.mem_append] at mem
    rcases mem with ((mem | mem) | mem) | mem <;> exact released_all _ b mem
  · obtain ⟨mark, slot, request, notice⟩ := driven_length s
    refine ⟨mark, slot, request, notice, fun running synced => ?_⟩
    have drives : s.mayDrive = true := (mayDrive_iff s).mpr ⟨running, synced⟩
    refine ⟨fun sending => ?_, fun notSending => ?_, fun i within => ?_, fun notPlacing => ?_⟩
    · simp [State.markDriven, drives, sending, markLevels]
    · simp only [State.markDriven, notSending, decide_false, Bool.and_false]
      exact released_all 16
    · rw [slotBits_getLsbD _ within, State.slotDriven, if_pos drives]
    · simp only [State.noticeDriven, placedBits, notPlacing, if_false]
      exact released_all noticeBitTimes

/-! ## The own slot read back (R97, R98) -/

/-- Settles O28: the three branches of the readback, the last a CLASHED entry. -/
theorem ownSlotReadBack : Obligations.OwnSlotReadBack := by
  unfold Obligations.OwnSlotReadBack
  intro bits s running synced timer counted
  have taken : exec (.ownSlotReadback bits) s = .next (readBackOwn bits s) := exec_running _ running
  rw [taken, readBackOwn, if_pos synced]
  refine ⟨fun same => ?_, fun differs clear => ?_, fun differs marked => ?_⟩
  · exact congrArg _ (if_pos same)
  · exact congrArg _ ((if_neg differs).trans (if_neg (by simpa using clear)))
  · refine congrArg _ ((if_neg differs).trans ((if_pos marked).trans ?_))
    rw [clashEntry_eq]
    rfl

/-! ## The request field and the grant (R96, R126, R195) -/

/-- A station that requests drives the bit time of its own number dominant, and every other recessive. -/
theorem requestLevels_getD (station : Fin 16) {i : Nat} (within : i < 20) :
    (requestLevels station.val).getD i true = false ↔ i = station.val + station.val / 7 := by
  have level : (requestLevels station.val).getD i true =
      (isSpacer i || ((List.range 16).map fun n => decide (n ≠ station.val)).getD (i - i / 8) true) := by
    simp [requestLevels, placeData, List.getD_eq_getElem?_getD, requestBitTimes, within]
  have bit : ((List.range 16).map fun n => decide (n ≠ station.val)).getD (i - i / 8) true = false ↔
      i - i / 8 = station.val := by
    have range := station.isLt
    by_cases inside : i - i / 8 < 16
    · simp [List.getD_eq_getElem?_getD, inside]
    · have outside : i - i / 8 ≠ station.val := by omega
      simp [List.getD_eq_getElem?_getD, inside, outside]
  rw [level, Bool.or_eq_false_iff, bit, isSpacer, decide_eq_false_iff_not]
  omega

theorem withinReach_iff (s : State) (j : Fin 16) :
    withinReach s j = true ↔
      j.val ≠ s.supply.straps.station.val ∧ j.val ≤ s.supply.straps.station.val + s.supply.straps.reach ∧
        s.supply.straps.station.val ≤ j.val + s.supply.straps.reach := by
  simp only [withinReach, Bool.and_eq_true, decide_eq_true_eq, and_assoc]
  rfl

/-- Precedence: FRESH before DEFERRED, and the lower number among equals (R126). -/
theorem precedes_iff (s : State) (j : Fin 16) :
    precedes s j = true ↔
      (slotClass s.line.slots[j] = .FRESH ∧ s.line.fieldClass = .DEFERRED) ∨
        (slotClass s.line.slots[j] = s.line.fieldClass ∧ j.val < s.supply.straps.station.val) := by
  unfold precedes
  cases slotClass s.line.slots[j] <;> cases s.line.fieldClass <;> simp [State.station]

theorem grantRule_iff (s : State) (requests : BitVec 16) :
    grantRule s requests = true ↔
      s.access.requests = some true ∧
        ∀ j : Fin 16, withinReach s j = true → requests.getLsbD j.val = true → ¬ precedes s j = true := by
  simp only [grantRule, Bool.and_eq_true, decide_eq_true_eq, List.all_eq_true, Bool.not_eq_true']
  refine and_congr_right fun _ => ⟨fun all j near asks first => ?_, fun none j _ => ?_⟩
  · have spared := all j (List.mem_finRange j)
    rw [near, asks, first] at spared
    exact absurd spared (by decide)
  · rw [Bool.eq_false_iff, ne_eq, Bool.and_eq_true, Bool.and_eq_true]
    rintro ⟨⟨near, asks⟩, first⟩
    exact none j near asks first

/-- Settles O29: the driven levels bit by bit, and the grant rule by reach, set and precedence. -/
theorem grantRuleApplied : Obligations.GrantRuleApplied := by
  unfold Obligations.GrantRuleApplied
  constructor
  · intro s
    obtain ⟨-, -, length, -⟩ := driven_length s
    refine ⟨length, fun i within => ?_⟩
    have drives : s.requestBit = true ↔
        heldInReset s = false ∧ s.line.state = .SYNCED ∧ s.access.requests = some true := by
      simp [State.requestBit, mayDrive_iff, and_assoc]
    by_cases requests : s.requestBit = true
    · obtain ⟨running, synced, asks⟩ := drives.mp requests
      rw [State.requestDriven, if_pos requests, State.station, requestLevels_getD _ within]
      simp [running, synced, asks]
    · have recessive : s.requestDriven.getD i true = true := by
        have inside : i < (released requestBitTimes).length := by simpa [released, requestBitTimes] using within
        rw [State.requestDriven, if_neg requests, List.getD_eq_getElem _ _ inside]
        exact released_all _ _ (List.getElem_mem inside)
      rw [recessive]
      exact ⟨fun wrong => absurd wrong (by decide), fun ⟨running, synced, asks, _⟩ =>
        absurd (drives.mpr ⟨running, synced, asks⟩) requests⟩
  · intro levels s running synced own asks classOf precedence
    have class_eq : ∀ j, classOf j = slotClass s.line.slots[j] := fun j => by
      simp only [classOf]
      cases s.line.slots[j] <;> rfl
    have inSet : ∀ j : Fin 16, (requestSetOf levels).getLsbD j.val = true ↔ asks j := fun j => by
      rw [requestSetOf_getLsbD, Bool.not_eq_true']
      rfl
    refine ⟨requestSetOf levels, grantRule s (requestSetOf levels), ?_, inSet, ?_⟩
    · rw [exec_running _ running]
      exact congrArg _ (if_pos synced)
    · rw [grantRule_iff]
      simp only [withinReach_iff, inSet, precedes_iff, ← class_eq]
      exact and_congr_right fun _ => forall_congr' fun j =>
        ⟨fun h other upper lower => h ⟨other, upper, lower⟩, fun h ⟨other, upper, lower⟩ => h other upper lower⟩

end Sys2Proof.Machine
end

section
/-! PROOFS. What moves the round count, the straps and the reset cause (O4). -/

namespace Sys2Proof.Machine

/-- The round count, the strap values and the reset cause (R87, R187, R189). -/
def standing (s : State) : Round × Straps × ResetCause := (s.line.round, s.supply.straps, s.supply.cause)

/-- The commands of the host leave the round count, the straps and the cause. -/
theorem standing_keptByHost (p : Round × Straps × ResetCause) : KeptByHost fun s => standing s = p where
  keepsPort _ _ same _ h := by rw [same]; exact h
  keepsWake s _ h := by rw [← h]; simp [standing]
  keepsBeams _ _ same h := by rw [same]; exact h
  keepsParam _ _ _ h := h
  keepsUnpend _ h := h
  keepsExcuses _ _ h := h
  keepsNotice _ s _ h := by rw [← h]; simp [standing]
  keepsHush _ s h := by rw [← h]; simp [standing]
  keepsSound _ _ same h := by rw [same]; exact h
  keepsRest s h := by rw [← h]; simp [standing]

/-- The commands that may move the round count, the straps or the cause: the five of round starts, POWER-ON, and the end of a
response. -/
def movesStanding : Instr → Bool
  | .markEnd _ _ _ => true
  | .roundTimerExpiry _ => true
  | .followingTimeout _ => true
  | .lineStuck _ _ => true
  | .lineStuckTimingFree _ _ => true
  | .powerOn _ _ => true
  | .responseSent _ => true
  | _ => false

theorem sampleBeams_standing (hall street : Beam) (s : State) : standing (sampleBeams hall street s) = standing s := by
  have broken : ∀ m, standing (beamBreak m) = standing m := fun m => by
    simp only [beamBreak]
    split <;> simp [standing]
  rw [sampleBeams_eq]
  simp only
  (repeat' split)
  · exact broken _
  · rfl
  · rfl

theorem sampleClear_standing (pressed : Bool) (s : State) : standing (sampleClear pressed s) = standing s := by
  simp only [sampleClear]
  split <;> simp [standing]

theorem slotEndSynced_standing (data : List Bool) (s : State) : standing (slotEndSynced data s) = standing s := by
  simp only [slotEndSynced]
  split <;> simp [standing, unmark, putFlight]

theorem effect_standing {c : Instr} (moves : movesStanding c = false) (s : State) : standing (effect c s) = standing s := by
  have host := standing_keptByHost (standing s)
  cases frame : hostFrameOf c with
  | some f => rw [effect_hostFrame frame]; exact host.completeFrame_keeps f rfl
  | none =>
    cases c <;> simp only [hostFrameOf, movesStanding, reduceCtorEq] at frame moves
    case hostFrameBad bytes => exact host.receiveBytes_keeps bytes rfl
    case hostByteGapTimeout before late =>
      exact host.receiveByte_keeps late (host.byteGap_keeps (host.receiveBytes_keeps before rfl))
    case reportFrameSent => exact host.reportEnd_keeps rfl
    case powerOnHold source => simp [effect, holdInReset, standing]
    case startMarkSend line =>
      simp only [effect, reachRoundEnd]
      split <;> rfl
    case minuteBoundary =>
      simp only [effect]
      split <;> rfl
    case soundLimitExpiry lane =>
      simp only [effect]
      split <;> simp [standing]
    case quietMinute =>
      simp only [effect]
      split <;> simp [standing]
    case listenTimeout =>
      simp only [effect]
      split <;> rfl
    case loneRecovery =>
      simp only [effect, leaveLone]
      split <;> simp [standing, lineQuiet]
    case timingFollowingRestored =>
      simp only [effect, followAgain]
      split <;> simp [standing, lineQuiet]
    case ownSlotReadback bits =>
      simp only [effect, readBackOwn]
      (repeat' split) <;> simp [standing, putClashMark]
    case requestFieldEnd levels =>
      simp only [effect, endRequests]
      split <;> rfl
    case noticeSlotStart slot =>
      simp only [effect, startNotice]
      (repeat' split) <;> rfl
    case noticeSlotEnd slot levels =>
      simp only [effect, endNotice]
      (repeat' split)
      case isTrue.isFalse.isTrue => exact slotEndSynced_standing _ _
      all_goals simp [standing, putTimer]
    case sounderEntryEnd =>
      simp only [effect, entryEnd]
      split <;> rfl
    case sounderEndMarkerRecheck =>
      simp only [effect, recheck]
      split <;> rfl
    case sounderSample =>
      simp only [effect, giveSample, entryEnd, recheck]
      (repeat' split) <;> rfl
    case flashToggle lane =>
      simp only [effect, toggleFlash]
      (repeat' split) <;> simp [standing]
    case beamChange hall street => exact sampleBeams_standing hall street s
    case beamSample hall street => exact sampleBeams_standing hall street s
    case clearPress => exact sampleClear_standing true s
    case clearSample pressed => exact sampleClear_standing pressed s
    case runTooShort =>
      simp only [effect, sendAfterRun]
      split <;> rfl
    all_goals simp [effect, standing]

/-! ## Round starts and resets (R87, R105, R187) -/

/-- The round count has stayed or gone up by one, and the straps and the cause have stayed. -/
def countedOn (s t : State) : Prop :=
  (t.line.round = s.line.round ∨ t.line.round = s.line.round + 1) ∧ t.supply.straps = s.supply.straps ∧
    t.supply.cause = s.supply.cause

theorem countedOn_of_standing {s t : State} (same : standing t = standing s) : countedOn s t := by
  simp only [standing, Prod.mk.injEq] at same
  obtain ⟨round, straps, cause⟩ := same
  exact ⟨.inl round, straps, cause⟩

theorem countedOn_roundStart {s m : State} (how : RoundHow) (timer : Nat) (input : RoundInput) (same : standing m = standing s) :
    countedOn s (roundStart how timer input m) := by
  have begun := roundStart_begun how timer input m
  obtain ⟨-, strapsKept, causeKept⟩ := begun.supplyKept
  simp only [standing, Prod.mk.injEq] at same
  obtain ⟨round, straps, cause⟩ := same
  exact ⟨.inr (begun.round.trans (by rw [round])), strapsKept.trans straps, causeKept.trans cause⟩

theorem countedOn_startIfDue {s m : State} (timer : Nat) (input : RoundInput) (same : standing m = standing s) :
    countedOn s (startIfDue timer input m) := by
  unfold startIfDue
  split
  · exact countedOn_roundStart _ _ input same
  · exact countedOn_of_standing same

theorem endMark_countedOn (began length : Nat) (input : RoundInput) (s : State) : countedOn s (endMark began length input s) := by
  simp only [endMark]
  (repeat' split)
  · exact countedOn_of_standing rfl
  · exact countedOn_roundStart _ _ input (by simp [standing, framingError, runEnds, missSlots_eq])
  · exact countedOn_roundStart _ _ input (by simp [standing, runEnds])
  · exact countedOn_roundStart _ _ input (by simp [standing, runEnds])
  · exact countedOn_of_standing rfl

theorem expireTimer_countedOn (input : RoundInput) (s : State) : countedOn s (expireTimer input s) := by
  simp only [expireTimer]
  (repeat' split)
  · exact countedOn_of_standing rfl
  · exact countedOn_roundStart _ _ input rfl
  · exact countedOn_roundStart _ _ input rfl
  · exact countedOn_of_standing rfl

theorem timeOutFollowing_countedOn (input : RoundInput) (s : State) : countedOn s (timeOutFollowing input s) := by
  unfold timeOutFollowing
  split
  · exact countedOn_roundStart _ _ input rfl
  · exact countedOn_of_standing rfl

theorem stickLine_countedOn (timer : Nat) (input : RoundInput) (s : State) : countedOn s (stickLine timer input s) := by
  unfold stickLine
  split
  · exact countedOn_startIfDue timer input (by simp [standing])
  · exact countedOn_of_standing rfl

theorem freeTiming_countedOn (timer : Nat) (input : RoundInput) (s : State) : countedOn s (freeTiming timer input s) := by
  unfold freeTiming
  split
  · exact countedOn_startIfDue timer input (by simp [standing])
  · exact countedOn_of_standing rfl

/-- The end of a response that carries RESET FULL (R105, R180, R188). -/
def fullReset (pins : StrapPins) (s t : State) : Prop :=
  (∃ r, s.host.outstanding = some r ∧ r.reset = some .FULL) ∧ t.line.round = 0 ∧ t.supply.cause = .FULL ∧
    t.supply.straps = readStraps pins

theorem responseEnd_standing (pins : StrapPins) (s : State) :
    standing (responseEnd pins s) = standing s ∨ fullReset pins s (responseEnd pins s) := by
  unfold responseEnd
  split
  · rename_i r _ outstanding
    cases scope : r.reset with
    | none => exact .inl (by simp [actOnReset, standing])
    | some scope' =>
      cases scope' with
      | FULL => exact .inr ⟨⟨r, outstanding, scope⟩, by simp [actOnReset, powerOnState, State.reset]⟩
      | ENGINE => exact .inl (by simp [actOnReset, standing])
      | COUNTS => exact .inl (by simp [actOnReset, standing, countsReset])
  all_goals exact .inl rfl

/-- What a command leaves when it is not taken, and when it is. -/
theorem exec_cases {c : Instr} {s t : State} (executed : exec c s = .next t) :
    (isPowerOn c = false ∧ t = s) ∨ t = effect c s := by
  rw [exec_eq] at executed
  injection executed with left
  split at left
  · rename_i barred
    rw [Bool.and_eq_true, Bool.not_eq_true'] at barred
    exact .inl ⟨barred.2, left.symm⟩
  · exact .inr left.symm

/-- Every command but POWER-ON and the end of a response keeps the straps and the cause, and adds at most one to the count. -/
theorem exec_countedOn {c : Instr} {s t : State} (notPowerOn : ∀ last pins, c ≠ .powerOn last pins)
    (notResponse : ∀ pins, c ≠ .responseSent pins) (executed : exec c s = .next t) : countedOn s t := by
  obtain ⟨-, rfl⟩ | rfl := exec_cases executed
  · exact countedOn_of_standing rfl
  cases moves : movesStanding c with
  | false => exact countedOn_of_standing (effect_standing moves s)
  | true =>
    cases c <;> simp only [movesStanding, Bool.false_eq_true] at moves
    case markEnd began length input => exact endMark_countedOn began length input s
    case roundTimerExpiry input => exact expireTimer_countedOn input s
    case followingTimeout input => exact timeOutFollowing_countedOn input s
    case lineStuck timer input => exact stickLine_countedOn timer input s
    case lineStuckTimingFree timer input => exact freeTiming_countedOn timer input s
    case powerOn last pins => exact absurd rfl (notPowerOn last pins)
    case responseSent pins => exact absurd rfl (notResponse pins)

/-- Settles O4: the commands that start rounds by `exec_countedOn`, the resets by what they set, every other by
`effect_standing`. -/
theorem roundCountAndStrapsHeld : Obligations.RoundCountAndStrapsHeld := by
  unfold Obligations.RoundCountAndStrapsHeld
  have stays : ∀ {c s t}, exec c s = .next t → movesStanding c = false → t.line.round = s.line.round :=
    fun executed moves => by
      obtain ⟨-, rfl⟩ | rfl := exec_cases executed
      · rfl
      · exact congrArg Prod.fst (effect_standing moves _)
  have responded : ∀ {pins s t}, exec (.responseSent pins) s = .next t → standing t = standing s ∨ fullReset pins s t :=
    fun executed => by
      obtain ⟨-, rfl⟩ | rfl := exec_cases executed
      · exact .inl rfl
      · exact responseEnd_standing _ _
  constructor
  · intro c s t executed
    cases c
    case markEnd | roundTimerExpiry | followingTimeout | lineStuck | lineStuckTimingFree =>
      exact (exec_countedOn (by simp) (by simp) executed).1
    case powerOn last pins =>
      obtain ⟨barred, -⟩ | rfl := exec_cases executed
      · cases barred
      · rfl
    case responseSent pins =>
      rcases responded executed with same | ⟨scope, round, -, -⟩
      · exact .inl (congrArg Prod.fst same)
      · exact .inr ⟨round, scope⟩
    all_goals exact stays executed rfl
  · intro c s t executed notPowerOn
    cases c
    case powerOn last pins => exact absurd rfl (notPowerOn last pins)
    case responseSent pins =>
      rcases responded executed with same | ⟨⟨r, outstanding, scope⟩, -, cause, straps⟩
      · exact .inl (countedOn_of_standing same).2
      · exact .inr ⟨pins, r, rfl, outstanding, scope, cause, straps⟩
    all_goals exact .inl (exec_countedOn (by simp) (by simp) executed).2

end Sys2Proof.Machine
end

section
/-! PROOFS. The slot of a station that hands no code: its outcome and its calm value, AWAKE and DORMANT (O25). -/

namespace Sys2Proof.Machine

/-! ## Slots of which only the calm value is handed on (R93, R103, R134) -/

theorem readsSlots_of {s : State}
    (state : s.line.state = .SYNCED ∨ ((s.line.state = .SILENT ∨ s.line.state = .CLASHED) ∧ s.line.timing = .FOLLOWING)) :
    readsSlots s = true := by
  rcases state with synced | ⟨silent | clashed, following⟩ <;> simp [readsSlots, *]

/-- The slot of a station that is no neighbour hands on neither code nor beam bits (R61, R94). -/
theorem handRow_far {s : State} {j : Fin 16} (o : SlotOutcome) (notLeft : j.val + 1 ≠ s.supply.straps.station.val)
    (notRight : j.val ≠ s.supply.straps.station.val + 1 ∨ s.supply.straps.isEnd = true) :
    handBeams j o (handCode j o s) = s := by
  have left : ¬ (hasLeft s && decide (j.val + 1 = s.station)) = true := by simp [State.station, notLeft]
  have right : ¬ (hasRight s && decide (j.val = s.station + 1)) = true := by
    rcases notRight with far | last
    · simp [State.station, far]
    · simp [hasRight, last]
  have code : handCode j o s = s := by rw [handCode, if_neg left, if_neg right]
  simp [code, handBeams, State.station, notLeft]

/-- A slot of which neither code nor beam bits are taken. -/
theorem slotEnd_calmOnly {s : State} {j : Fin 16} {o : SlotOutcome} (reads : readsSlots s = true)
    (other : j.val ≠ s.supply.straps.station.val)
    (far : takesRow s = true → handBeams j o (handCode j o (slotEntered j o s)) = slotEntered j o s) :
    slotEnd j o s = handCalm j (slotCalm o) (slotEntered j o s) := by
  have entered : (readsSlots s && decide (j.val ≠ s.station)) = true := by
    rw [reads, Bool.true_and]
    exact decide_eq_true other
  have row : (if takesRow (slotEntered j o s) then handBeams j o (handCode j o (slotEntered j o s)) else slotEntered j o s) =
      slotEntered j o s := by
    split
    · exact far ‹_›
    · rfl
  rw [slotEnd, if_pos entered]
  exact congrArg (handCalm j (slotCalm o)) row

/-- The access unit with a station's calm value held, when that is within reach (R134). -/
def calmHeld (near : Bool) (j : Fin 16) (value : Cadence) (a : AccessUnit) : AccessUnit :=
  { a with peerCalm := if near then a.peerCalm.set j value else a.peerCalm }

/-- A DORMANT pedestal holds a calm value, and a change to BRISK wakes it (R134, R138, R194). -/
theorem handCalm_dormant {s : State} (j : Fin 16) (value : Cadence) (dormant : s.supply.dormancy = .DORMANT) :
    handCalm j value s =
      if turnsBrisk (withinReach s j) j value s.access then
        wake .CALM { s with access := calmHeld (withinReach s j) j value s.access }
      else { s with access := calmHeld (withinReach s j) j value s.access } := by
  by_cases reach : withinReach s j = true
  · by_cases brisk : s.access.peerCalm[j] = .CALM ∧ value = .BRISK
    · have change : (decide (s.access.peerCalm[j] = .CALM) && decide (value = .BRISK)) = true := by simpa using brisk
      rw [if_pos ⟨reach, brisk⟩]
      simp only [handCalm, reach, change, dormant, calmHeld]
      rfl
    · have noChange : (decide (s.access.peerCalm[j] = .CALM) && decide (value = .BRISK)) = false := by simpa using brisk
      rw [if_neg fun turns => brisk turns.2]
      simp only [handCalm, reach, noChange, calmHeld]
      rfl
  · rw [if_neg fun turns => reach turns.1]
    simp only [handCalm, reach, calmHeld]
    rfl

/-- A wake of a CLASHED pedestal keeps its line state (R105, R194; log entry 13). -/
theorem wake_clashed (cadence : Cadence) {s : State} (clashed : s.line.state = .CLASHED) :
    (wake cadence s).line.state = .CLASHED ∧
      (wake cadence s).access = { s.access with cadence := cadence, quietRounds := 0 } ∧
      (wake cadence s).supply =
        { s.supply with dormancy := .AWAKE, dormantRounds := 0, quietMinutes := 0, pendingEntry := false } := by
  simp [wake, clashed, dormantTimerZero]

/-- Settles O25: only the calm value is handed on, AWAKE by `handCalm_awake`, DORMANT by `handCalm_dormant`. -/
theorem calmValueTaken : Obligations.CalmValueTaken := by
  unfold Obligations.CalmValueTaken
  intro j bits s running other calm change line held
  have handed : calm = slotCalm (slotOutcome bits) := by
    simp only [calm]
    cases slotOutcome bits <;> rfl
  have ends : exec (.slotReceived j bits) s = .next (slotEnd j (slotOutcome bits) s) := exec_running _ running
  refine ⟨fun awake state notLeft notRight => ?_, fun dormant state following => ?_⟩
  · have taken := slotEnd_calmOnly (readsSlots_of state) other fun _ =>
      handRow_far (s := slotEntered j (slotOutcome bits) s) (slotOutcome bits) notLeft notRight
    rw [handCalm_awake (s := slotEntered j (slotOutcome bits) s) j _ awake, ← handed] at taken
    rw [ends, taken]
    rfl
  · have asleep : takesRow s = false := by
      rcases state with silent | clashed <;> simp [takesRow, *]
    have taken := slotEnd_calmOnly (o := slotOutcome bits) (readsSlots_of (.inr ⟨state, following⟩)) other
      fun row => absurd row (by simp [asleep])
    rw [handCalm_dormant (s := slotEntered j (slotOutcome bits) s) j _ dormant, ← handed] at taken
    rw [ends, taken]
    refine ⟨fun still => congrArg _ (if_neg still), fun turns silent => ?_, fun turns clashed => ?_⟩
    · refine congrArg _ ((if_pos turns).trans ((wake_eq _ _ ?_).trans rfl))
      simp [slotEntered, silent]
    · obtain ⟨state, access, supply⟩ := wake_clashed .CALM
        (s := { slotEntered j (slotOutcome bits) s with access := held }) clashed
      exact ⟨_, congrArg _ (if_pos turns), state, access, supply⟩

end Sys2Proof.Machine
end

section
/-! PROOFS. A newly confirmed peer code and the machine of its lane (O27). -/

namespace Sys2Proof.Machine

/-! ## A machine hushed, and a machine set sounding (R143, R148, R151) -/

theorem hasLane_congr {s t : State} (l : LaneSide) (straps : t.supply.straps = s.supply.straps) : hasLane t l = hasLane s l := by
  cases l <;> simp [hasLane, hasLeft, hasRight, State.station, straps]

theorem anySounding_congr {s t : State} (lanes : t.lanes = s.lanes) (straps : t.supply.straps = s.supply.straps) :
    anySounding t = anySounding s := by
  simp only [anySounding, sounds, hasLane_congr _ straps, laneState, lanes]

/-- A machine set SOUNDING starts the sounder, unless a machine sounds already (R151, R157). -/
theorem setLane_sounding_sounder {l : LaneSide} (k : Nat) {s : State} (has : hasLane s l = true) :
    (anySounding s = true → (setLane l (.SOUNDING k) s).sounder = s.sounder) ∧
      (setLane l (.SOUNDING k) s).sounder.playing = (s.sounder.playing || !anySounding s) := by
  simp only [setLane, putLane_sounding has]
  cases anySounding s with
  | false => simpa using soundStart_playing _
  | true => simp

/-- A SOUNDING machine that is hushed: HUSHED, or ARMED at once when its lane is free, with its report (R144, R148, R152). -/
theorem hushLane_sounding {l : LaneSide} {k : Nat} (cause : LaneCause) {s : State} (has : hasLane s l = true)
    (sounding : laneState s l = .SOUNDING k) :
    (hushLane l cause s).lanes = (putLane l (if laneFree s l then .ARMED else .HUSHED true) s).lanes ∧
      (hushLane l cause s).host = recorded s.line.round (.LANE (laneNumber s l) false cause) s.host := by
  have sounds_l : sounds s l = true := by simp [sounds, has, sounding, isSounding]
  generalize hushing : makeRecord (.LANE (laneNumber s l) false cause) (setLane l (.HUSHED true) s) = m
  have lanes : m.lanes = (putLane l (.HUSHED true) s).lanes := by rw [← hushing, makeRecord_eq]; exact setLane_lanes _ _ _
  have host : m.host = recorded s.line.round (.LANE (laneNumber s l) false cause) s.host := by
    rw [← hushing, makeRecord_eq]
    simp
  have free : laneFree m l = laneFree s l := laneFree_congr l (by simp [← hushing]) (by simp [← hushing]) (by simp [← hushing])
  have hasM : hasLane m l = true := by rw [hasLane_congr (s := s) l (by simp [← hushing])]; exact has
  have machine : laneState m l = .HUSHED true := by cases l <;> simp [laneState, lanes, putLane]
  have tested : rearmed m l = if laneFree s l then .ARMED else .HUSHED true := by simp [rearmed, hasM, machine, isHushed, free]
  rw [hushLane, if_pos sounds_l, hushing, rearm_rearmed, tested]
  refine ⟨?_, by simpa using host⟩
  cases l <;> simp [putLane, lanes]

/-! ## The code as it is taken (R95, R143) -/

/-- The part `m` at the moment the code `seen`, newly confirmed in the part `s`, reaches the machine of lane `l`. -/
structure CodeConfirmed (l : LaneSide) (seen : PeerCode) (s m : State) : Prop where
  lanes : m.lanes = s.lanes
  sounder : m.sounder = s.sounder
  host : m.host = s.host
  track : m.track = s.track
  round : m.line.round = s.line.round
  straps : m.supply.straps = s.supply.straps
  confirmed : (peerRecord m l).confirmed = seen

/-- A neighbour's slot with a code that it confirms anew takes that code to the machine of the shared lane; what follows leaves
lanes, sounder and reports. -/
theorem slotEnd_newCode {s : State} {l : LaneSide} {j : Fin 16} {o : SlotOutcome} {seen : PeerCode}
    (awake : s.supply.dormancy = .AWAKE)
    (state : s.line.state = .SYNCED ∨ (s.line.state = .CLASHED ∧ s.line.timing = .FOLLOWING)) (shared : sharesLane s l j)
    (observed : slotObservation (sharedCode l) o = some seen) (again : (peerRecord s l).lastSeen = some seen)
    (new : (peerRecord s l).confirmed ≠ seen) :
    ∃ m, CodeConfirmed l seen s m ∧ (slotEnd j o s).lanes = (takePeerCode l (peerRecord s l).confirmed seen m).lanes ∧
      (slotEnd j o s).sounder = (takePeerCode l (peerRecord s l).confirmed seen m).sounder ∧
      (slotEnd j o s).host = (takePeerCode l (peerRecord s l).confirmed seen m).host := by
  generalize entering : slotEntered j o s = e
  have same : peerRecord e l = peerRecord s l := by cases l <;> (rw [← entering]; rfl)
  have heard : heardRecord (some seen) (peerRecord e l) = { confirmed := seen, lastSeen := some seen } := by
    simp [heardRecord, same, again]
  have confirms := hearCode_new (l := l) (seen := some seen) (s := e) (by rw [heard, same]; exact new.symm)
  rw [heard, same] at confirms
  generalize holding : (if quietCode seen then putPeer l { confirmed := seen, lastSeen := some seen } e
    else dormantTimerZero (putPeer l { confirmed := seen, lastSeen := some seen } e)) = m at confirms
  have ended := slotEnd_neighbour awake state shared o
  rw [observed, entering, confirms] at ended
  have taken : (handBeams j o (takePeerCode l (peerRecord s l).confirmed seen m)).supply.dormancy = .AWAKE := by
    rw [← holding, ← entering]
    split <;> simpa [slotEntered, dormantTimerZero] using awake
  rw [handCalm_awake j _ taken] at ended
  refine ⟨m, ?_, by simp [ended], by simp [ended], by simp [ended]⟩
  rw [← holding, ← entering]
  constructor
  case confirmed => split <;> cases l <;> rfl
  all_goals split <;> simp [slotEntered]

/-! ## The machine of the lane (R143, R148, R152) -/

section
variable {l : LaneSide} {old seen : PeerCode} {s m : State}

theorem CodeConfirmed.machine (h : CodeConfirmed l seen s m) : laneState m l = laneState s l := by
  cases l <;> simp [laneState, h.lanes]

theorem CodeConfirmed.putLane_lanes (h : CodeConfirmed l seen s m) (st : LaneState) :
    (putLane l st m).lanes = (putLane l st s).lanes := by
  cases l <;> simp [putLane, h.lanes]

theorem CodeConfirmed.laneNumber_eq (h : CodeConfirmed l seen s m) : laneNumber m l = laneNumber s l := by
  cases l <;> simp only [laneNumber, State.station, h.straps]

theorem CodeConfirmed.free (h : CodeConfirmed l seen s m) : laneFree m l = (!occupied s l && !blocksRearm seen) := by
  have names : ∀ side, sideNames m side l = sideNames s side l := fun side => by rw [sideNames_eq, sideNames_eq, h.straps]
  simp only [laneFree, occupied, names, h.track, h.confirmed]

/-- SOUND sounds an ARMED machine (R143). -/
theorem CodeConfirmed.sounds (h : CodeConfirmed l (.code .SOUND) s m) (has : hasLane s l = true)
    (armed : laneState s l = .ARMED) :
    (takePeerCode l old (.code .SOUND) m).lanes = (putLane l (.SOUNDING s.host.params.soundLimit) s).lanes ∧
      (takePeerCode l old (.code .SOUND) m).host = recorded s.line.round (.LANE (laneNumber s l) true .PEER) s.host ∧
      (anySounding s = true → (takePeerCode l old (.code .SOUND) m).sounder = s.sounder) ∧
      (takePeerCode l old (.code .SOUND) m).sounder.playing = (s.sounder.playing || !anySounding s) := by
  have sounded : takePeerCode l old (.code .SOUND) m = enterSounding l .PEER m := by
    simp [takePeerCode, h.machine, armed]
  obtain ⟨keeps, plays⟩ := setLane_sounding_sounder m.host.params.soundLimit (by rw [hasLane_congr l h.straps]; exact has)
  rw [anySounding_congr h.lanes h.straps, h.sounder] at keeps plays
  rw [sounded]
  refine ⟨?_, ?_, fun already => ?_, ?_⟩
  · rw [enterSounding_lanes, h.putLane_lanes, h.host]
  · rw [enterSounding_host, h.laneNumber_eq, h.host, h.round]
  · simpa [enterSounding, State.params] using keeps already
  · simpa [enterSounding, State.params] using plays

/-- A hush code after another code hushes a SOUNDING machine (R143, R148). -/
theorem CodeConfirmed.hushes {k : Nat} (h : CodeConfirmed l seen s m) (has : hasLane s l = true)
    (sounding : laneState s l = .SOUNDING k) (hush : isHushCode seen = true) (other : isHushCode old = false) :
    (takePeerCode l old seen m).lanes =
        (putLane l (if !occupied s l && !blocksRearm seen then .ARMED else .HUSHED true) s).lanes ∧
      (takePeerCode l old seen m).host = recorded s.line.round (.LANE (laneNumber s l) false .PEER) s.host := by
  have hushed : takePeerCode l old seen m = hushLane l .PEER m := by
    simp [takePeerCode, h.machine, sounding, hush, other]
  obtain ⟨lanes, host⟩ := hushLane_sounding .PEER (by rw [hasLane_congr l h.straps]; exact has)
    (h.machine.trans sounding)
  rw [hushed, lanes, host, h.putLane_lanes, h.free, h.laneNumber_eq, h.host, h.round]
  exact ⟨rfl, rfl⟩

/-- A HUSHED machine is tested for re-arming (R143, R148). -/
theorem CodeConfirmed.rearms {lit : Bool} (h : CodeConfirmed l seen s m) (has : hasLane s l = true)
    (hushed : laneState s l = .HUSHED lit) :
    (takePeerCode l old seen m).lanes =
        (putLane l (if !occupied s l && !blocksRearm seen then .ARMED else .HUSHED lit) s).lanes ∧
      (takePeerCode l old seen m).host = s.host ∧ (takePeerCode l old seen m).sounder = s.sounder := by
  have machine : laneState m l = .HUSHED lit := h.machine.trans hushed
  have tested : takePeerCode l old seen m = putLane l (rearmed m l) m := by
    rw [← rearm_rearmed]
    simp [takePeerCode, machine]
  have result : rearmed m l = if !occupied s l && !blocksRearm seen then .ARMED else .HUSHED lit := by
    simp only [rearmed, hasLane_congr l h.straps, has, machine, isHushed, h.free, Bool.true_and]
  rw [tested, result, h.putLane_lanes]
  exact ⟨rfl, by simpa using h.host, by simpa using h.sounder⟩

/-- Any other code leaves an ARMED or SOUNDING machine, the sounder and the reports (R143). -/
theorem CodeConfirmed.stays (h : CodeConfirmed l seen s m)
    (idle : (laneState s l = .ARMED ∧ seen ≠ .code .SOUND) ∨
      ∃ k, laneState s l = .SOUNDING k ∧ (isHushCode seen = false ∨ isHushCode old = true)) :
    (takePeerCode l old seen m).lanes = s.lanes ∧ (takePeerCode l old seen m).host = s.host ∧
      (takePeerCode l old seen m).sounder = s.sounder := by
  have same : takePeerCode l old seen m = m := by
    rcases idle with ⟨armed, silent⟩ | ⟨k, sounding, noHush | stillHush⟩ <;> simp [takePeerCode, h.machine, *]
  rw [same]
  exact ⟨h.lanes, h.host, h.sounder⟩

end

theorem isHushCode_iff (c : PeerCode) : isHushCode c = true ↔ c = .code .HUSH_OCC ∨ c = .code .HUSH_CLEAR := by
  simp [isHushCode]

theorem notBlocksRearm_iff (c : PeerCode) : (!blocksRearm c) = true ↔ c ≠ .code .SOUND ∧ c ≠ .code .HUSH_OCC := by
  simp [blocksRearm]

theorem hasLane_shared {s : State} {l : LaneSide} {j : Fin 16} (shared : sharesLane s l j) : hasLane s l = true := by
  cases l with
  | left =>
    have next : j.val + 1 = s.supply.straps.station.val := shared
    simp [hasLane, hasLeft, State.station, ← next]
  | right => simp [hasLane, hasRight, shared.2]

/-- Settles O27: the code reaches the machine of the shared lane, and acts there by the machine's state. -/
theorem peerCodeActsOnLane : Obligations.PeerCodeActsOnLane := by
  unfold Obligations.PeerCodeActsOnLane
  intro l bits j seen s running awake state station neighbour observes record again new number before put hush own free
  have shared : sharesLane s l j := by cases l <;> exact neighbour
  have observed : slotObservation (sharedCode l) (slotOutcome bits) = some seen := by
    cases outcome : slotOutcome bits <;> simp only [outcome] at observes
    · rw [observes]
      cases l <;> rfl
    · rw [observes]
      rfl
  have same : peerRecord s l = record := by cases l <;> rfl
  have machine : laneState s l = before := by cases l <;> rfl
  have lanes : ∀ st, (putLane l st s).lanes = put st := fun st => by cases l <;> rfl
  have numbered : laneNumber s l = number := by cases l <;> rfl
  have unoccupied : (!occupied s l) = free := by
    simp only [occupied, free, List.not_any_eq_all_not, sideNames_eq]
    congr 1
    funext x
    cases l <;> simp [own, station]
  obtain ⟨m, confirmed, lanesEnd, sounderEnd, hostEnd⟩ :=
    slotEnd_newCode awake state shared observed (same ▸ again) (same ▸ new)
  rw [same] at lanesEnd sounderEnd hostEnd
  have has := hasLane_shared shared
  refine ⟨_, exec_running _ running, ?_⟩
  simp only [effect, lanesEnd, sounderEnd, hostEnd]
  refine ⟨fun armed sound => ?_, fun armed silent => ?_, fun k sounding hushes other => ?_, fun k sounding noHush => ?_,
    fun lit hushed => ?_⟩
  · subst sound
    obtain ⟨lanes', host, keeps, plays⟩ := confirmed.sounds (old := record.confirmed) has (machine.trans armed)
    exact ⟨lanes'.trans (lanes _), numbered ▸ host, keeps, plays⟩
  · exact confirmed.stays (.inl ⟨machine.trans armed, silent⟩)
  · obtain ⟨lanes', host⟩ := confirmed.hushes has (machine.trans sounding) hushes other
    refine ⟨lanes'.trans ((lanes _).trans ?_), numbered ▸ host⟩
    have clear : (!blocksRearm seen) = decide (seen = .code .HUSH_CLEAR) := by
      rcases (isHushCode_iff seen).mp hushes with rfl | rfl <;> rfl
    simp only [unoccupied, clear, Bool.and_eq_true, decide_eq_true_eq]
  · exact confirmed.stays (.inr ⟨k, machine.trans sounding, noHush⟩)
  · obtain ⟨lanes', host, sounder⟩ := confirmed.rearms (old := record.confirmed) has (machine.trans hushed)
    refine ⟨lanes'.trans ((lanes _).trans ?_), host, sounder⟩
    simp only [unoccupied, notBlocksRearm_iff, Bool.and_eq_true]

end Sys2Proof.Machine
end

section
/-! PROOFS. Notice slots: their start, the slots not contended for (O31), and those contended for (O32). -/

namespace Sys2Proof.Machine

/-! ## Slots that are read (R102, R103, R116) -/

/-- A pedestal that reads notice slots: SYNCED, and AWAKE and CLASHED while it follows marks. -/
theorem readsNotices_iff (s : State) :
    readsNotices s = true ↔
      s.line.state = .SYNCED ∨
        (s.line.state = .CLASHED ∧ s.line.timing = .FOLLOWING ∧ s.supply.dormancy = .AWAKE) := by
  simp [readsNotices, and_assoc]

/-- The part with the timer at a bit time of a notice slot (R195). -/
def slotTimed (slot : Fin 24) (bitTime : Nat) (s : State) : State :=
  { s with line := { s.line with timer := 292 + 720 * slot.val + bitTime } }

/-- A slot given in part has its readback at once; given whole, it ends. -/
theorem endNotice_reads (slot : Fin 24) {levels : List Bool} {s : State} (reads : readsNotices s = true) :
    (levels.length < 720 →
        endNotice slot levels s =
          if s.line.state = .SYNCED then readBackNotice (slotData levels) (slotTimed slot (levels.length - 1) s)
          else slotTimed slot (levels.length - 1) s) ∧
      (levels.length = 720 →
        endNotice slot levels s =
          if s.line.state = .SYNCED then slotEndSynced (slotData levels) (slotTimed slot 719 s)
          else receiveSlot (slotData levels) (slotTimed slot 719 s)) := by
  rw [endNotice, if_pos reads]
  exact ⟨fun part => if_pos part, fun whole => if_neg (Nat.not_lt.mpr whole.ge)⟩

theorem readBackNotice_unplaced (data : List Bool) {s : State} (notPlacing : s.notices.inFlight ≠ .PLACING) :
    readBackNotice data s = s := by
  simp [readBackNotice, placedBits, notPlacing]

theorem slotIdle_iff (data : List Bool) : slotIdle data = true ↔ ∀ b ∈ data, b = true := by
  simp [slotIdle]

/-- The notice class of a SYNCED pedestal after a slot it did not win (R115). -/
theorem classAfterSlot_eq (data : List Bool) (s : State) :
    classAfterSlot data s =
      { s with
        line :=
          { s.line with
            noticeClass := if data.headD true = true ∨ ∀ b ∈ data, b = true then .FRESH else s.line.noticeClass } } := by
  have condition : (slotIdle data || data.headD true) = true ↔ data.headD true = true ∨ ∀ b ∈ data, b = true := by
    rw [Bool.or_eq_true, slotIdle_iff, or_comm]
  simp only [classAfterSlot, condition]
  split <;> rfl

/-- A slot not won: idle, a bad notice, or a good one under the own number (R116 to R118). -/
theorem receiveSlot_rows (data : List Bool) (s : State) :
    ((∀ b ∈ data, b = true) → receiveSlot data s = s) ∧
      ((∃ b ∈ data, b = false) → noticeBody data = none → receiveSlot data s = noticeCrcError s) ∧
      ∀ body, noticeBody data = some body → noticeStation data = s.supply.straps.station → receiveSlot data s = s := by
  refine ⟨fun idle => if_pos ((slotIdle_iff data).mpr idle), fun busy bad => ?_, fun body good own => ?_⟩
  · have notIdle : ¬ slotIdle data = true := by
      rw [slotIdle_iff]
      obtain ⟨b, mem, dominant⟩ := busy
      exact fun all => absurd (all b mem) (by simp [dominant])
    rw [receiveSlot, if_neg notIdle, checkNotice, bad]
  · rw [receiveSlot, checkNotice, good]
    simp only [own, State.station, if_true]
    split <;> rfl

/-- The part that reads a whole slot it did not contend for: the timer at its end, in SYNCED the class it leaves (R115). -/
def slotListened (slot : Fin 24) (data : List Bool) (s : State) : State :=
  { s with
    line :=
      { s.line with
        timer := 292 + 720 * slot.val + 719
        noticeClass :=
          if s.line.state = .SYNCED ∧ (data.headD true = true ∨ ∀ b ∈ data, b = true) then .FRESH
          else s.line.noticeClass } }

theorem endNotice_listens (slot : Fin 24) {levels : List Bool} {s : State} (whole : levels.length = 720)
    (reads : readsNotices s = true) (idle : s.notices.inFlight = .NONE) :
    endNotice slot levels s = receiveSlot (slotData levels) (slotListened slot (slotData levels) s) := by
  rw [(endNotice_reads slot reads).2 whole]
  by_cases synced : s.line.state = .SYNCED
  · rw [if_pos synced, slotEndSynced_listens _ (s := slotTimed slot 719 s) idle, classAfterSlot_eq]
    simp only [slotListened, slotTimed, synced, true_and]
  · rw [if_neg synced]
    simp only [slotListened, slotTimed, synced, false_and, if_false]

/-- Settles O31: a slot is read or not, in part or whole, and one not contended for is received by `receiveSlot_rows`. -/
theorem noticeSlotTaken : Obligations.NoticeSlotTaken := by
  unfold Obligations.NoticeSlotTaken
  refine ⟨fun slot s running => ⟨fun synced => ?_, fun clashed following awake => ?_, fun state => ?_⟩,
    fun slot levels s running part state => ?_, fun slot levels s running whole idle state => ?_⟩
  · have reads := (readsNotices_iff s).mpr (.inl synced)
    rw [exec_running _ running, effect, startNotice, if_pos reads]
    refine congrArg _ ((if_pos synced).trans ?_)
    simp only [List.isEmpty_iff]
    rfl
  · have reads := (readsNotices_iff s).mpr (.inr ⟨clashed, following, awake⟩)
    rw [exec_running _ running, effect, startNotice, if_pos reads]
    exact congrArg _ (if_neg (by simp [clashed]))
  · have unread : readsNotices s = false := by
      rcases state with listen | lone | silent <;> simp [readsNotices, *]
    refine ⟨?_, fun levels => ?_⟩
    · rw [exec_running _ running, effect, startNotice, unread]
      rfl
    · rw [exec_running _ running, effect, endNotice, unread]
      rfl
  · have reads := (readsNotices_iff s).mpr (state.imp_left And.left)
    rw [exec_running _ running, effect, (endNotice_reads slot reads).1 part]
    refine congrArg _ ?_
    rcases state with ⟨synced, notPlacing⟩ | ⟨clashed, -⟩
    · rw [if_pos synced]
      exact readBackNotice_unplaced _ notPlacing
    · exact if_neg (by simp [clashed])
  · intro bits fresh line
    have listens : exec (.noticeSlotEnd slot levels) s = .next (receiveSlot bits { s with line := line }) :=
      (exec_running _ running).trans (congrArg _ (endNotice_listens slot whole ((readsNotices_iff s).mpr state) idle))
    obtain ⟨quiet, bad, own⟩ := receiveSlot_rows bits { s with line := line }
    exact ⟨fun all => listens.trans (congrArg _ (quiet all)), fun busy none => listens.trans (congrArg _ (bad busy none)),
      fun body good station => listens.trans (congrArg _ (own body good station))⟩

/-! ## The contest of a slot (R112, R113) -/

/-- Data bit `i` of the notice placed reads back wrong: placed recessive, and read dominant in its bit time. -/
def readWrong (placed levels : List Bool) (i : Nat) : Prop :=
  i < placed.length ∧ placed.getD i true = true ∧ levels.getD (i + i / 7) true = false

theorem readWrong_iff {placed levels : List Bool} (fits : placed.length ≤ 630) (i : Nat) :
    readWrong placed levels i ↔ placed[i]? = some true ∧ (slotData levels)[i]? = some false := by
  by_cases inside : i < placed.length
  · have short : i < 630 := by omega
    have picked : (slotData levels)[i]? = some (levels.getD (i + i / 7) true) := by
      simp [slotData, pickData, noticeDataBits, dataTime, short]
    rw [picked, readWrong, List.getElem?_eq_getElem inside, List.getD_eq_getElem _ _ inside, Option.some_inj, Option.some_inj]
    exact and_iff_right inside
  · rw [readWrong, List.getElem?_eq_none (Nat.not_lt.mp inside)]
    simp [inside]

theorem overridden_iff (placed read : List Bool) :
    overridden placed read = true ↔ ∃ i : Nat, placed[i]? = some true ∧ read[i]? = some false := by
  simp only [overridden, List.any_eq_true, Bool.and_eq_true, Bool.not_eq_true', Prod.exists, List.mem_iff_getElem?,
    List.getElem?_zip_eq_some]
  constructor
  · rintro ⟨p, r, ⟨i, placed, read⟩, rfl, rfl⟩
    exact ⟨i, placed, read⟩
  · rintro ⟨i, placed, read⟩
    exact ⟨true, false, ⟨i, placed, read⟩, rfl, rfl⟩

/-- How a contest stands by the first bit read back wrong: in the arbitration field, in the body, or nowhere (R112, R113). -/
theorem contestOf_rows {placed levels : List Bool} (fits : placed.length ≤ 630) :
    ((∃ i, i < 5 ∧ readWrong placed levels i) → contestOf placed (slotData levels) = .LOST) ∧
      ((∀ i, i < 5 → ¬ readWrong placed levels i) → (∃ i, readWrong placed levels i) →
        contestOf placed (slotData levels) = .FAILED) ∧
      ((∀ i, ¬ readWrong placed levels i) → contestOf placed (slotData levels) = .PLACING) := by
  have arbitration : overridden (placed.take 5) ((slotData levels).take 5) = true ↔ ∃ i, i < 5 ∧ readWrong placed levels i := by
    simp only [overridden_iff, readWrong_iff fits]
    refine exists_congr fun i => ?_
    by_cases first : i < 5 <;> simp [first]
  have body : overridden (placed.drop 5) ((slotData levels).drop 5) = true ↔ ∃ i, readWrong placed levels (5 + i) := by
    simp only [overridden_iff, readWrong_iff fits, List.getElem?_drop]
  refine ⟨fun lost => if_pos (arbitration.mpr lost), fun won failed => ?_, fun sent => ?_⟩
  · obtain ⟨i, wrong⟩ := failed
    have late : 5 ≤ i := Nat.not_lt.mp fun early => won i early wrong
    rw [contestOf, if_neg fun lost => (arbitration.mp lost).elim fun i h => won i h.1 h.2]
    exact if_pos (body.mpr ⟨i - 5, by rwa [Nat.add_sub_cancel' late]⟩)
  · rw [contestOf, if_neg fun lost => (arbitration.mp lost).elim fun i h => sent i h.2]
    exact if_neg fun failed => (body.mp failed).elim fun i h => sent (5 + i) h

/-- The readback of a contest: nothing while no bit reads back wrong, a line error for one in the body, the slot lost for one in
the arbitration field (R112, R113). -/
theorem readBackNotice_rows {n : Notice} {rest : List Notice} (levels : List Bool) {s : State}
    (placing : s.notices.inFlight = .PLACING) (head : s.notices.outbox = n :: rest)
    (fits : (noticeBits s.line.noticeClass s.supply.straps.station n.body).length ≤ 630) :
    let wrong := readWrong (noticeBits s.line.noticeClass s.supply.straps.station n.body) levels
    ((∀ i, ¬ wrong i) → readBackNotice (slotData levels) s = s) ∧
      ((∀ i, i < 5 → ¬ wrong i) ∧ (∃ i, wrong i) → readBackNotice (slotData levels) s = putFlight .FAILED (lineError s)) ∧
      ((∃ i, i < 5 ∧ wrong i) → readBackNotice (slotData levels) s = putFlight .LOST s) := by
  intro wrong
  have placed : placedBits s = some (noticeBits s.line.noticeClass s.supply.straps.station n.body) := by
    simp [placedBits, placing, head]
  obtain ⟨lost, failed, sent⟩ := contestOf_rows (levels := levels) fits
  simp only [readBackNotice, placed]
  refine ⟨fun right => ?_, fun ⟨won, later⟩ => ?_, fun early => ?_⟩
  · rw [sent right]
  · rw [failed won later]
  · rw [lost early]

/-! ## The end of a contended slot (R106, R112 to R115) -/

/-- The driver of a contender gives each data bit at its bit time, and recessive in the spacers (R85, R102). -/
theorem noticeDriven_placed {n : Notice} {rest : List Notice} {s : State} (drives : s.mayDrive = true)
    (placing : s.notices.inFlight = .PLACING) (head : s.notices.outbox = n :: rest) :
    s.noticeDriven = placeData 720 (noticeBits s.line.noticeClass s.supply.straps.station n.body) := by
  have placed : placedBits s = some (noticeBits s.line.noticeClass s.supply.straps.station n.body) := by
    simp [placedBits, placing, head]
  simp only [State.noticeDriven, placed, drives, if_true]
  rfl

theorem receiveSlot_lineErrors (data : List Bool) (s : State) :
    (receiveSlot data s).host.errors.lineErrors = s.host.errors.lineErrors := by
  have checked : (checkNotice data s).host.errors.lineErrors = s.host.errors.lineErrors := by
    unfold checkNotice
    split
    · rfl
    · split <;> simp
  unfold receiveSlot
  split
  · rfl
  · exact checked

theorem slotData_headD (levels : List Bool) : (slotData levels).headD true = levels.getD 0 true := by
  rw [List.headD_eq_head?_getD, List.head?_eq_getElem?, ← List.getD_eq_getElem?_getD]
  exact pickData_getD (d := 0) levels (by decide)

/-- A slot lost in the arbitration field is received as another's: the notice stays, and the class bit counts (R112, R115). -/
theorem slotEndSynced_lost {levels : List Bool} {s m : State} (read : readBackNotice (slotData levels) s = m)
    (lost : m.notices.inFlight = .LOST) :
    (slotEndSynced (slotData levels) s).notices = { m.notices with inFlight := .NONE } ∧
      (slotEndSynced (slotData levels) s).line =
        { m.line with noticeClass := if levels.getD 0 true = true then .FRESH else m.line.noticeClass } ∧
      (slotEndSynced (slotData levels) s).host.errors.lineErrors = m.host.errors.lineErrors := by
  have received : slotEndSynced (slotData levels) s =
      receiveSlot (slotData levels) (classAfterSlot (slotData levels) (unmark m)) := by
    simp only [slotEndSynced, read, lost]
  have classBit : ((slotData levels).headD true = true ∨ ∀ b ∈ slotData levels, b = true) ↔ levels.getD 0 true = true := by
    rw [← slotData_headD, or_iff_left_iff_imp]
    intro idle
    cases data : slotData levels with
    | nil => rfl
    | cons b rest => exact idle b (by simp [data])
  simp only [received, classAfterSlot_eq, classBit, receiveSlot_lineErrors]
  simp [unmark, putFlight]

/-- The end of a slot whose contest was failed before or fails now. -/
theorem slotEndSynced_failed {levels : List Bool} {s m : State} (read : readBackNotice (slotData levels) s = m)
    (failed : m.notices.inFlight = .FAILED) : slotEndSynced (slotData levels) s = unmark m := by
  simp only [slotEndSynced, read, failed]

/-- The end of a slot in which every bit placed was read back: the notice is sent (R106, R114, R115). -/
theorem slotEndSynced_sent {levels : List Bool} {s : State} (read : readBackNotice (slotData levels) s = s)
    (placing : s.notices.inFlight = .PLACING) :
    slotEndSynced (slotData levels) s =
      { s with
        line := { s.line with noticeClass := .DEFERRED }
        notices := { outbox := s.notices.outbox.tail, inFlight := .NONE } } := by
  simp only [slotEndSynced, read, placing]
  rfl

/-- The part at a bit time of a slot has the contest of the part before it. -/
theorem noticeSlotEnd_synced (slot : Fin 24) {levels : List Bool} {s : State} (running : heldInReset s = false)
    (synced : s.line.state = .SYNCED) :
    (levels.length < 720 →
        exec (.noticeSlotEnd slot levels) s =
          .next (readBackNotice (slotData levels) (slotTimed slot (levels.length - 1) s))) ∧
      (levels.length = 720 →
        exec (.noticeSlotEnd slot levels) s = .next (slotEndSynced (slotData levels) (slotTimed slot 719 s))) := by
  obtain ⟨part, whole⟩ := endNotice_reads slot (levels := levels) ((readsNotices_iff s).mpr (.inl synced))
  rw [exec_running _ running, effect]
  exact ⟨fun h => congrArg _ ((part h).trans (if_pos synced)), fun h => congrArg _ ((whole h).trans (if_pos synced))⟩

/-- Settles O32: the rows of the readback, taken at once in a slot given in part, and ended by what they leave in a whole one. -/
theorem ownNoticeSlotEnds : Obligations.OwnNoticeSlotEnds := by
  unfold Obligations.OwnNoticeSlotEnds
  constructor
  · intro slot levels n rest s running synced placing head placed differs timed marked counted sent failed lost fits
    have drives : s.mayDrive = true := (mayDrive_iff s).mpr ⟨running, synced⟩
    have driven : s.noticeDriven = placeData 720 placed := noticeDriven_placed drives placing head
    obtain ⟨part, whole⟩ := noticeSlotEnd_synced slot (levels := levels) running synced
    obtain ⟨-, -, -, length⟩ := driven_length s
    refine ⟨⟨length, fun d inside => ?_, fun i spacer => ?_⟩, fun short => ?_, fun long => ?_⟩
    · rw [driven]
      exact placeData_dataTime placed (by simp only [dataTime]; omega)
    · rw [driven]
      exact placeData_spacer placed (decide_eq_true spacer)
    · obtain ⟨still, fails, loses⟩ := readBackNotice_rows levels (s := slotTimed slot (levels.length - 1) s) placing head fits
      rw [part short]
      exact ⟨fun h => congrArg _ (still h), fun h => congrArg _ (fails h), fun h => congrArg _ (loses h)⟩
    · obtain ⟨still, fails, loses⟩ := readBackNotice_rows levels (s := slotTimed slot 719 s) placing head fits
      have timedWhole : timed = (slotTimed slot 719 s).line := by simp only [timed, long]; rfl
      rw [whole long, timedWhole]
      refine ⟨fun h => congrArg _ ?_, fun h => congrArg _ ?_, fun h => ⟨_, rfl, slotEndSynced_lost (loses h) rfl⟩⟩
      · rw [slotEndSynced_sent (still h) placing]
        simp only [slotTimed, head, List.tail_cons]
      · rw [slotEndSynced_failed (fails h) rfl]
        rfl
  · intro slot levels s running synced long timed
    have ended := (noticeSlotEnd_synced slot (levels := levels) running synced).2 long
    have unplaced : s.notices.inFlight ≠ .PLACING →
        readBackNotice (slotData levels) (slotTimed slot 719 s) = slotTimed slot 719 s :=
      fun notPlacing => readBackNotice_unplaced (s := slotTimed slot 719 s) _ notPlacing
    refine ⟨fun failed => ?_, fun lost => ?_⟩
    · rw [ended, slotEndSynced_failed (unplaced (by simp [failed])) failed]
      rfl
    · exact ⟨_, ended, slotEndSynced_lost (unplaced (by simp [lost])) lost⟩

end Sys2Proof.Machine
end

section
/-! PROOFS. What a SYNCED round that ends with a start mark settles for the next (O14). -/

namespace Sys2Proof.Machine

/-! ## One part of a round start among the others -/

/-- The dormant timer's part alone changes the supply block (R191). -/
theorem roundTask_supply (how : RoundHow) (sense : DriveSense) {u : RoundTask} (notRest : u ≠ .dormantTimer) (m : State) :
    (roundTask how sense u m).supply = m.supply := by
  cases u <;> simp [roundTask] at notRest ⊢

/-- A property of the parts still to come and of the part so far, kept by each part in turn: with no DORMANT entry due, the
dormant timer's part leaves the straps and the dormancy. -/
theorem roundTasks_remaining (P : List RoundTask → State → Prop) (how : RoundHow) (sense : DriveSense) (l : List RoundTask)
    (nodup : l.Nodup)
    (kept : ∀ u ∈ l, u ≠ .dormantTimer → ∀ later, u ∉ later → ∀ m, P (u :: later) m → P later (roundTask how sense u m))
    (rested : ∀ later m v, v.straps = m.supply.straps → v.dormancy = m.supply.dormancy → P (.dormantTimer :: later) m →
      P later (m.onSupply fun _ => v))
    {s : State} (due : RoundTask.dormantTimer ∈ l → restNotDue s) (h : P l s) : P [] (roundTasks how sense l s) := by
  induction l generalizing s with
  | nil => exact h
  | cons u l ih =>
    rw [List.nodup_cons] at nodup
    have kept' : ∀ v ∈ l, v ≠ .dormantTimer → ∀ later, v ∉ later → ∀ m, P (v :: later) m → P later (roundTask how sense v m) :=
      fun v mem => kept v (List.mem_cons_of_mem u mem)
    by_cases rest : u = .dormantTimer
    · subst rest
      refine ih nodup.2 kept' (s := roundTask how sense .dormantTimer s) (fun later => absurd later nodup.1) ?_
      obtain ⟨change, dormancy⟩ := dormantAdvance_noRest (due List.mem_cons_self)
      have straps : (dormantAdvance s).supply.straps = s.supply.straps := by simp
      simp only [roundTask]
      rw [change]
      exact rested l s _ straps dormancy h
    · refine ih nodup.2 kept' (s := roundTask how sense u s) (fun later => ?_) (kept u List.mem_cons_self rest l nodup.1 s h)
      simpa [restNotDue, roundTask_supply how sense rest s] using due (List.mem_cons_of_mem u later)

/-- Where the rules fix that `a` comes before `b`, `b` is not among the parts before `a`. -/
theorem roundOrder_notBefore {input : RoundInput} {a b : RoundTask} (fixed : (a, b) ∈ fixedOrders) {l r : List RoundTask}
    (order : roundOrder input = l ++ a :: r) (once : a ∉ l) : b ∉ l := by
  intro mem
  obtain ⟨l1, l2, rfl⟩ := List.append_of_mem mem
  have nodup := roundOrder_nodup input
  rw [order, List.append_assoc, List.cons_append] at nodup
  have bOnce : b ∉ l1 := fun h => (List.nodup_append.mp nodup).2.2 b h b List.mem_cons_self rfl
  have order' : roundOrder input = l1 ++ b :: (l2 ++ a :: r) := by rw [order, List.append_assoc, List.cons_append]
  exact once (List.mem_append_left _ (roundOrder_before fixed order' bOnce))

/-- What one part of a round start leaves: `P` holds of the parts to come before it and of the part so far, `Q` from it on. No
DORMANT entry is due. -/
theorem roundStart_part {part : RoundTask} (notRest : part ≠ .dormantTimer) (P : List RoundTask → State → Prop)
    (Q : State → Prop) {how : RoundHow} {timer : Nat} {input : RoundInput} {s : State} (rest : restNotDue s)
    (before : ∀ u, u ≠ part → u ≠ .dormantTimer → (part, u) ∉ fixedOrders → ∀ later, u ∉ later → ∀ m, P (u :: later) m →
      P later (roundTask how input.sense u m))
    (beforeRest : ∀ later m v, P (.dormantTimer :: later) m → P later (m.onSupply fun _ => v))
    (here : ∀ m, m.supply.straps = s.supply.straps → m.supply.dormancy = s.supply.dormancy → P [] m →
      Q (roundTask how input.sense part m))
    (after : ∀ u, u ≠ part → u ≠ .dormantTimer → (u, part) ∉ fixedOrders → ∀ m, Q m → Q (roundTask how input.sense u m))
    (afterRest : ∀ m v, Q m → Q (m.onSupply fun _ => v))
    (ends : ∀ slots calm m, Q m →
      Q ((m.onLine fun u => { u with requestSet := none, slots := slots }).onAccess fun a =>
        { a with grant := false, peerCalm := calm }))
    (begins : ∀ later, P later (s.onLine fun u => { u with timer := timer, round := u.round + 1 })) :
    Q (roundStart how timer input s) := by
  obtain ⟨l, r, order, notInL, notInR⟩ := roundOrder_split input part
  have nodup := roundOrder_nodup input
  rw [order, List.nodup_append] at nodup
  obtain ⟨nodupL, nodupR, apart⟩ := nodup
  generalize starting : (s.onLine fun u => { u with timer := timer, round := u.round + 1 }) = s1 at begins
  have supplyS1 : s1.supply = s.supply := by rw [← starting]; rfl
  have restS1 : restNotDue s1 := by simpa [restNotDue, supplyS1] using rest
  obtain ⟨reached, straps, dormancy⟩ := roundTasks_remaining
    (fun later m => P later m ∧ m.supply.straps = s.supply.straps ∧ m.supply.dormancy = s.supply.dormancy) how input.sense l
    nodupL
    (fun u mem notRest' later once m ⟨h, straps, dormancy⟩ =>
      ⟨before u (fun e => notInL (e ▸ mem)) notRest' (fun fixed => roundOrder_notBefore fixed order notInL mem) later once m h,
        by rw [roundTask_supply how input.sense notRest']; exact straps,
        by rw [roundTask_supply how input.sense notRest']; exact dormancy⟩)
    (fun later m v strapsV dormancyV ⟨h, straps, dormancy⟩ =>
      ⟨beforeRest later m v h, strapsV.trans straps, dormancyV.trans dormancy⟩)
    (fun _ => restS1) ⟨begins l, by rw [supplyS1], by rw [supplyS1]⟩
  have restLater : RoundTask.dormantTimer ∈ r → restNotDue (roundTask how input.sense part (roundTasks how input.sense l s1)) := by
    intro inR
    have notInL' : RoundTask.dormantTimer ∉ l := fun inL => apart _ inL _ (List.mem_cons_of_mem _ inR) rfl
    have supply : (roundTasks how input.sense l s1).supply = s1.supply :=
      foldl_keeps_mem (fun m => m.supply) _ l
        (fun u mem m => roundTask_supply how input.sense (fun e => notInL' (e ▸ mem)) m) s1
    simpa [restNotDue, roundTask_supply how input.sense notRest, supply] using restS1
  have ended := roundTasks_noRest Q how input.sense r (List.nodup_cons.mp nodupR).2
    (fun u mem notRest' => after u (fun e => notInR (e ▸ mem)) notRest'
      (fun fixed => apart _ (roundOrder_before fixed order notInL) _ (List.mem_cons_of_mem _ mem) rfl))
    afterRest restLater (here _ straps dormancy reached)
  simp only [roundStart, missSlots_eq, starting, order, List.foldl_append, List.foldl_cons]
  exact ends _ _ (roundTasks how input.sense r _) ended

/-! ## The field class (R129) -/

/-- The field class that a SYNCED round which ends with a start mark leaves (R129). -/
def classSettled (s : State) : SendClass :=
  if s.access.grant then .DEFERRED else if freshRival s then s.line.fieldClass else .FRESH

/-- What the field class is settled by, as a round start finds it. -/
structure ClassAwaited (s m : State) : Prop where
  grant : m.access.grant = s.access.grant
  state : m.line.state = s.line.state
  slots : m.line.slots = s.line.slots
  requests : m.line.requestSet = s.line.requestSet
  fieldClass : m.line.fieldClass = s.line.fieldClass

theorem freshRival_congr {s t : State} (requests : t.line.requestSet = s.line.requestSet) (slots : t.line.slots = s.line.slots)
    (straps : t.supply.straps = s.supply.straps) : freshRival t = freshRival s := by
  simp only [freshRival, requests, slots, withinReach_congr _ straps]

theorem fieldClassUpdate_synced {s m : State} (synced : s.line.state = .SYNCED) (awaited : ClassAwaited s m)
    (straps : m.supply.straps = s.supply.straps) : (fieldClassUpdate .startMark m).line.fieldClass = classSettled s := by
  have condition : (decide (RoundHow.startMark = .startMark) && decide (m.line.state = .SYNCED)) = true := by
    simp [awaited.state, synced]
  rw [fieldClassUpdate, if_pos condition, awaited.grant, freshRival_congr awaited.requests awaited.slots straps, classSettled]
  (repeat' split)
  · rfl
  · exact awaited.fieldClass
  · rfl

theorem roundStart_classSettled {timer : Nat} {input : RoundInput} {s : State} (rest : restNotDue s)
    (synced : s.line.state = .SYNCED) : (roundStart .startMark timer input s).line.fieldClass = classSettled s := by
  refine roundStart_part (part := .fieldClass) (by decide) (fun _ m => ClassAwaited s m)
    (fun m => m.line.fieldClass = classSettled s) rest (fun u notClass notRest first later _ m h => ?_)
    (fun _ _ _ h => ⟨h.grant, h.state, h.slots, h.requests, h.fieldClass⟩)
    (fun m straps _ h => fieldClassUpdate_synced synced h straps) (fun u notClass notRest _ m h => ?_) (fun _ _ h => h)
    (fun _ _ _ h => h) (fun _ => ⟨rfl, rfl, rfl, rfl, rfl⟩)
  · have notStart : u ≠ .windowStart := fun e => first (e ▸ by decide)
    obtain ⟨grant, state, slots, requests, fieldClass⟩ := h
    constructor <;> cases u <;> simp [roundTask] at notClass notRest notStart ⊢ <;> assumption
  · cases u <;> simp [roundTask] at notClass notRest ⊢ <;> exact h

/-- A FRESH requester within reach, in the words of the request set and the slot table (R129). -/
theorem freshRival_iff (s : State) :
    freshRival s = true ↔
      ∃ (requests : BitVec 16) (j : Fin 16), s.line.requestSet = some requests ∧ requests.getLsbD j.val = true ∧
        j.val ≠ s.supply.straps.station.val ∧ j.val ≤ s.supply.straps.station.val + s.supply.straps.reach ∧
        s.supply.straps.station.val ≤ j.val + s.supply.straps.reach ∧
        ∀ w, s.line.slots[j] = .PRESENT w → w.fieldClass = .FRESH := by
  have fresh : ∀ o : SlotOutcome, slotClass o = .FRESH ↔ ∀ w, o = .PRESENT w → w.fieldClass = .FRESH := fun o => by
    cases o <;> simp [slotClass]
  unfold freshRival
  cases set : s.line.requestSet with
  | none => simp
  | some requests =>
    simp only [List.any_eq_true, List.mem_finRange, true_and, Bool.and_eq_true, decide_eq_true_eq, withinReach_iff, fresh,
      Option.some.injEq]
    constructor
    · rintro ⟨j, ⟨⟨other, upper, lower⟩, asks⟩, classFresh⟩
      exact ⟨requests, j, rfl, asks, other, upper, lower, classFresh⟩
    · rintro ⟨_, j, rfl, asks, other, upper, lower, classFresh⟩
      exact ⟨j, ⟨⟨other, upper, lower⟩, asks⟩, classFresh⟩

/-! ## The request decision (R124) -/

theorem retryDue_iff (s : State) (c : Coil) :
    retryDue s c = true ↔ ∃ failed, coilState s c = .FAULT failed ∧ 250 ≤ (s.line.round - failed).toNat := by
  unfold retryDue
  cases coilState s c with
  | OK => simp
  | FAULT failed =>
    simp only [CoilState.FAULT.injEq, exists_eq_left']
    exact decide_eq_true_iff

/-- A coil can make a drive check: OK, or FAULT for 250 rounds or more (R6, R124). -/
theorem coilUsable_iff (s : State) :
    coilUsable s = true ↔
      s.field.coilH = .OK ∨ s.field.coilS = .OK ∨
        ∃ failed, (s.field.coilH = .FAULT failed ∨ s.field.coilS = .FAULT failed) ∧
          250 ≤ (s.line.round - failed).toNat := by
  have working : (!bothFault s) = true ↔ s.field.coilH = .OK ∨ s.field.coilS = .OK := by
    by_cases okH : s.field.coilH = .OK <;> by_cases okS : s.field.coilS = .OK <;>
      simp [bothFault, coilFault, coilState, okH, okS]
  rw [coilUsable, Bool.or_eq_true, Bool.or_eq_true, working, retryDue_iff, retryDue_iff]
  simp only [coilState, or_and_right, exists_or, or_assoc]

theorem coilUsable_congr {s t : State} (coilH : t.field.coilH = s.field.coilH) (coilS : t.field.coilS = s.field.coilS)
    (round : t.line.round = s.line.round) : coilUsable t = coilUsable s := by
  rw [Bool.eq_iff_iff, coilUsable_iff, coilUsable_iff, coilH, coilS, round]

/-- A round start that ends a window in flight leaves the coils (R2). -/
theorem cutWindow_coils (s : State) :
    (cutWindow s).field.coilH = s.field.coilH ∧ (cutWindow s).field.coilS = s.field.coilS := by
  unfold cutWindow
  split
  · exact ⟨rfl, rfl⟩
  · rename_i w _
    have kept : ∀ sweep : Sweep, (completeSweep w.half sweep s).field.coilH = s.field.coilH ∧
        (completeSweep w.half sweep s).field.coilS = s.field.coilS := fun sweep => by
      cases sweep <;> simp only [completeSweep]
      · split <;> simp
      · simp
    simpa [windowEnd_field] using kept w.sweep

/-- The request decision by the cadence of the new round (R124). -/
def requestSettled (s : State) (cadence : Cadence) : Bool :=
  coilUsable { s with line := { s.line with round := s.line.round + 1 } } &&
    (cadence = .BRISK || (s.line.round + 1).toNat % 8 = 0)

theorem roundStart_requestSettled {how : RoundHow} {timer : Nat} {input : RoundInput} {s : State} (rest : restNotDue s)
    (synced : s.line.state = .SYNCED) :
    (roundStart how timer input s).access.requests =
      some (requestSettled s (roundStart how timer input s).access.cadence) := by
  refine roundStart_part (part := .requestDecision) (by decide)
    (fun _ m => (m.field.coilH = s.field.coilH ∧ m.field.coilS = s.field.coilS) ∧ m.line.round = s.line.round + 1 ∧
      m.line.state = s.line.state)
    (fun m => m.access.requests = some (requestSettled s m.access.cadence)) rest
    (fun u notRequest notRest first later _ m ⟨coils, round, state⟩ => ?_) (fun _ _ _ h => h)
    (fun m _ _ ⟨⟨coilH, coilS⟩, round, state⟩ => ?_) (fun u notRequest notRest before m h => ?_) (fun _ _ h => h)
    (fun _ _ _ h => h) (fun _ => ⟨⟨rfl, rfl⟩, rfl, rfl⟩)
  · have notStart : u ≠ .windowStart := fun e => first (e ▸ by decide)
    refine ⟨?_, by simpa using round, ?_⟩
    · cases u
      case windowEnd => exact ⟨(cutWindow_coils m).1.trans coils.1, (cutWindow_coils m).2.trans coils.2⟩
      all_goals simp [roundTask] at notRequest notRest notStart ⊢ <;> exact coils
    · cases u <;> simp [roundTask] at notRequest notRest ⊢ <;> exact state
  · have usable : coilUsable m = coilUsable { s with line := { s.line with round := s.line.round + 1 } } :=
      coilUsable_congr coilH coilS round
    simp [roundTask, requestDecide, requestNow, requestSettled, usable, State.now, round, state, synced]
  · have notQuiet : u ≠ .quietCount := fun e => before (e ▸ by decide)
    have cadence : (roundTask how input.sense u m).access.cadence = m.access.cadence := by
      cases u <;> simp [roundTask] at notQuiet notRest ⊢
    have requests : (roundTask how input.sense u m).access.requests = m.access.requests := by
      cases u <;> simp [roundTask] at notRequest ⊢
    rw [cadence, requests, h]

/-! ## A round start with no window in flight and none to begin -/

/-- No window is in flight, and none can begin: no grant is held, and the pedestal is not LONE. -/
structure NoWindow (m : State) : Prop where
  idle : m.field.window = none
  grant : m.access.grant = false
  notLone : m.line.state ≠ .LONE

theorem NoWindow.cutWindow_eq {m : State} (h : NoWindow m) : cutWindow m = m := by
  simp [cutWindow, h.idle]

theorem NoWindow.windowAtRound_eq {m : State} (h : NoWindow m) (how : RoundHow) (sense : DriveSense) :
    windowAtRound how sense m = m := by
  simp [windowAtRound, h.grant, h.notLone]

theorem NoWindow.onSupply {m : State} (h : NoWindow m) (f : SupplyUnit → SupplyUnit) : NoWindow (m.onSupply f) :=
  ⟨h.idle, h.grant, h.notLone⟩

/-- The field unit stays as it is in every part, and no window begins. -/
theorem NoWindow.roundTask {m : State} (h : NoWindow m) (how : RoundHow) (sense : DriveSense) {u : RoundTask}
    (notRest : u ≠ .dormantTimer) :
    (roundTask how sense u m).field = m.field ∧ NoWindow (Machine.roundTask how sense u m) := by
  have field : (Machine.roundTask how sense u m).field = m.field := by
    cases u
    case windowEnd => exact congrArg State.field h.cutWindow_eq
    case windowStart => exact congrArg State.field (h.windowAtRound_eq how sense)
    case dormantTimer => exact absurd rfl notRest
    all_goals simp [Machine.roundTask]
  have grant : (Machine.roundTask how sense u m).access.grant = m.access.grant := by
    cases u
    case windowStart => exact congrArg (fun m => m.access.grant) (h.windowAtRound_eq how sense)
    case dormantTimer => exact absurd rfl notRest
    all_goals simp [Machine.roundTask]
  exact ⟨field, field ▸ h.idle, grant ▸ h.grant, roundTask_notLone how sense u h.notLone⟩

/-! ## The quiet-round count (R132) -/

/-- The cadence and the quiet-round count that a round start leaves of an AWAKE pedestal with an empty table (R132). -/
def calmSettled (s : State) : Cadence × Nat :=
  let count := if beamBroken s then 0 else s.access.quietRounds + 1
  if s.access.cadence = .CALM then (.CALM, s.access.quietRounds)
  else if s.host.params.calmAfter ≤ count then (.CALM, 0)
  else (.BRISK, count)

theorem quietAdvance_empty {m : State} (awake : m.supply.dormancy = .AWAKE) (empty : m.track.table = []) :
    ((quietAdvance m).access.cadence, (quietAdvance m).access.quietRounds) = calmSettled m := by
  cases cadence : m.access.cadence with
  | CALM => simp [quietAdvance, calmSettled, cadence]
  | BRISK =>
    generalize counting : (if beamBroken m then 0 else m.access.quietRounds + 1) = count
    have advanced : quietAdvance m = calmTest (m.onAccess fun a => { a with quietRounds := count }) := by
      simp [quietAdvance, awake, cadence, empty, ← counting]
      rfl
    have settled : calmSettled m = if m.host.params.calmAfter ≤ count then (.CALM, 0) else (.BRISK, count) := by
      simp [calmSettled, cadence, counting]
    rw [advanced, settled]
    by_cases due : m.host.params.calmAfter ≤ count
    · rw [if_pos due, calmTest_due (by exact awake) (by exact cadence) (by exact due)]
    · rw [if_neg due, calmTest_notDue (.inr (.inr (by simpa using due)))]
      simp [cadence]

theorem calmSettled_congr {s t : State} (cadence : t.access.cadence = s.access.cadence)
    (quietRounds : t.access.quietRounds = s.access.quietRounds) (hall : t.beams.hall = s.beams.hall)
    (street : t.beams.street = s.beams.street) (params : t.host.params = s.host.params)
    (straps : t.supply.straps = s.supply.straps) : calmSettled t = calmSettled s := by
  have broken : beamBroken t = beamBroken s := by simp [beamBroken, hasRight, hall, street, straps]
  simp only [calmSettled, broken, cadence, quietRounds, params]

/-- What the quiet-round count is settled by, as a round start finds it. -/
structure QuietAwaited (s m : State) : Prop where
  noWindow : NoWindow m
  table : m.track.table = []
  cadence : m.access.cadence = s.access.cadence
  quietRounds : m.access.quietRounds = s.access.quietRounds
  hall : m.beams.hall = s.beams.hall
  street : m.beams.street = s.beams.street
  params : m.host.params = s.host.params

/-- With no window, the parts but the quiet count leave the cadence and the quiet-round count. -/
theorem NoWindow.cadence_eq {m : State} (h : NoWindow m) (how : RoundHow) (sense : DriveSense) {u : RoundTask}
    (notQuiet : u ≠ .quietCount) (notRest : u ≠ .dormantTimer) :
    (Machine.roundTask how sense u m).access.cadence = m.access.cadence ∧
      (Machine.roundTask how sense u m).access.quietRounds = m.access.quietRounds := by
  cases u
  case quietCount => exact absurd rfl notQuiet
  case dormantTimer => exact absurd rfl notRest
  case windowEnd => simp [Machine.roundTask, h.cutWindow_eq]
  case windowStart => simp [Machine.roundTask, h.windowAtRound_eq]
  all_goals simp [Machine.roundTask]

/-- With no window and an empty table, every part leaves the table empty. -/
theorem NoWindow.empty_kept {m : State} (h : NoWindow m) (empty : m.track.table = []) (how : RoundHow) (sense : DriveSense)
    {u : RoundTask} (notRest : u ≠ .dormantTimer) : (Machine.roundTask how sense u m).track.table = [] := by
  by_cases notEnd : u = .windowEnd
  · simp [notEnd, Machine.roundTask, h.cutWindow_eq, empty]
  by_cases notStart : u = .windowStart
  · simp [notStart, Machine.roundTask, h.windowAtRound_eq, empty]
  by_cases notExpiry : u = .trackExpiry
  · simp [notExpiry, Machine.roundTask, expireTracks, empty]
  obtain ⟨-, -, table, -⟩ := roundTask_afterWindow how sense u notStart notRest notEnd notExpiry m
  exact table.trans empty

theorem roundStart_calmSettled {how : RoundHow} {timer : Nat} {input : RoundInput} {s : State} (rest : restNotDue s)
    (noWindow : NoWindow s) (awake : s.supply.dormancy = .AWAKE) (empty : s.track.table = []) :
    ((roundStart how timer input s).access.cadence, (roundStart how timer input s).access.quietRounds) = calmSettled s := by
  obtain ⟨idle, grant, notLone⟩ := noWindow
  refine (roundStart_part (part := .quietCount) (by decide) (fun _ m => QuietAwaited s m)
    (fun m => NoWindow m ∧ (m.access.cadence, m.access.quietRounds) = calmSettled s) rest
    (fun u notQuiet notRest _ later _ m h => ?_) (fun _ _ _ ⟨noWindow, table, cadence, quietRounds, hall, street, params⟩ =>
      ⟨noWindow.onSupply _, table, cadence, quietRounds, hall, street, params⟩)
    (fun m straps dormancy h => ?_) (fun u notQuiet notRest _ m ⟨h, settled⟩ => ?_)
    (fun m _ ⟨h, settled⟩ => ⟨h.onSupply _, settled⟩) (fun _ _ m ⟨h, settled⟩ => ⟨⟨h.idle, rfl, h.notLone⟩, settled⟩)
    (fun _ => ⟨⟨idle, grant, notLone⟩, empty, rfl, rfl, rfl, rfl, rfl⟩)).2
  · obtain ⟨noWindow, table, cadence, quietRounds, hall, street, params⟩ := h
    obtain ⟨sameCadence, sameRounds⟩ := noWindow.cadence_eq how input.sense notQuiet notRest
    exact ⟨(noWindow.roundTask how input.sense notRest).2, noWindow.empty_kept table how input.sense notRest,
      sameCadence.trans cadence, sameRounds.trans quietRounds, by simpa using hall, by simpa using street,
      by simpa using params⟩
  · refine ⟨(h.noWindow.roundTask how input.sense (by decide)).2, ?_⟩
    exact (quietAdvance_empty (dormancy.trans awake) h.table).trans
      (calmSettled_congr h.cadence h.quietRounds h.hall h.street h.params straps)
  · obtain ⟨sameCadence, sameRounds⟩ := h.cadence_eq how input.sense notQuiet notRest
    exact ⟨(h.roundTask how input.sense notRest).2, by rw [sameCadence, sameRounds, settled]⟩

/-! ## The lane codes (R92, R139 to R141) -/

/-- The same machine, but for the time its sound timer has left. -/
def sameMachine (before after : LaneState) : Prop :=
  after = before ∨ ∃ i k, before = .SOUNDING i ∧ after = .SOUNDING k

/-- The code of a lane with its machine at `machine` (R141). -/
def codeOfMachine (s : State) (l : LaneSide) (machine : LaneState) : LaneCode :=
  if hasLane s l = false then .QUIET
  else if s.field.coilH ≠ .OK ∧ s.field.coilS ≠ .OK then .FAULT
  else
    match machine with
    | .ARMED => if occupied s l then .OCCUPIED else .QUIET
    | .SOUNDING _ => .SOUND
    | .HUSHED _ => if occupied s l then .HUSH_OCC else .HUSH_CLEAR

theorem laneCodeNow_eq (s : State) (l : LaneSide) : laneCodeNow s l = codeOfMachine s l (laneState s l) := by
  have faulty : bothFault s = true ↔ s.field.coilH ≠ .OK ∧ s.field.coilS ≠ .OK := by
    rw [bothFault, Bool.and_eq_true]
    exact and_congr decide_eq_true_iff decide_eq_true_iff
  unfold laneCodeNow codeOfMachine
  simp only [Bool.not_eq_true', faulty] <;> rfl

theorem codeOfMachine_same (s : State) (l : LaneSide) {a b : LaneState} (same : sameMachine a b) :
    codeOfMachine s l b = codeOfMachine s l a := by
  rcases same with rfl | ⟨i, k, rfl, rfl⟩ <;> rfl

theorem codeOfMachine_congr {s t : State} (l : LaneSide) (machine : LaneState) (field : t.field = s.field)
    (table : t.track.table = s.track.table) (straps : t.supply.straps = s.supply.straps) :
    codeOfMachine t l machine = codeOfMachine s l machine := by
  have names : ∀ side, sideNames t side l = sideNames s side l := fun side => by rw [sideNames_eq, sideNames_eq, straps]
  have occupancy : occupied t l = occupied s l := by simp only [occupied, names, table]
  simp only [codeOfMachine, hasLane_congr l straps, field, occupancy]

/-- A sound timer with more than a round left goes on: the machine sounds, and nothing else changes (R144). -/
theorem soundTick_lasts {l : LaneSide} {s : State} (lasts : ∀ k, laneState s l = .SOUNDING k → 2 ≤ k) :
    ∃ after, soundTick l s = putLane l after s ∧ sameMachine (laneState s l) after := by
  by_cases silent : ∀ k, laneState s l ≠ .SOUNDING k
  · exact ⟨laneState s l, (soundTick_still silent).trans (putLane_same l s).symm, .inl rfl⟩
  · obtain ⟨k, sounding⟩ := not_forall_not.mp silent
    have left : ¬ k ≤ 1 := Nat.not_le.mpr (lasts k sounding)
    by_cases has : hasLane s l = true
    · refine ⟨.SOUNDING (k - 1), ?_, .inr ⟨k, k - 1, sounding, rfl⟩⟩
      simp only [soundTick, has, sounding, left, if_true, if_false]
    · refine ⟨laneState s l, ?_, .inl rfl⟩
      rw [soundTick, if_neg has, putLane_same]

/-- What the lane codes are formed by, as a round start finds it: the machines as they were until the sound timers are taken. -/
structure CodesAwaited (s : State) (later : List RoundTask) (m : State) : Prop where
  noWindow : NoWindow m
  field : m.field = s.field
  table : m.track.table = s.track.table
  round : m.line.round = s.line.round + 1
  params : m.host.params = s.host.params
  untouched : RoundTask.soundTimers ∈ later → m.lanes = s.lanes
  left : sameMachine s.lanes.left m.lanes.left
  right : sameMachine s.lanes.right m.lanes.right

theorem soundTimers_last {s m : State} (lanes : m.lanes = s.lanes)
    (last : ∀ k, s.lanes.left = .SOUNDING k ∨ s.lanes.right = .SOUNDING k → 2 ≤ k) :
    ∃ left right, soundTick .right (soundTick .left m) = { m with lanes := { m.lanes with left := left, right := right } } ∧
      sameMachine s.lanes.left left ∧ sameMachine s.lanes.right right := by
  obtain ⟨left, ticksLeft, sameLeft⟩ := soundTick_lasts (l := .left) (s := m) fun k h => last k (.inl (lanes ▸ h))
  obtain ⟨right, ticksRight, sameRight⟩ := soundTick_lasts (l := .right) (s := putLane .left left m)
    fun k h => last k (.inr (lanes ▸ h))
  refine ⟨left, right, by rw [ticksLeft, ticksRight]; rfl, lanes ▸ sameLeft, lanes ▸ sameRight⟩

/-- With no window and no overdue track, the parts but the sound timers leave the table and the lanes. -/
theorem NoWindow.tracks_kept {m : State} (h : NoWindow m) (fresh : ∀ x ∈ m.track.table, overdue m x = false) (how : RoundHow)
    (sense : DriveSense) {u : RoundTask} (notRest : u ≠ .dormantTimer) (notSound : u ≠ .soundTimers) :
    (Machine.roundTask how sense u m).track.table = m.track.table ∧ (Machine.roundTask how sense u m).lanes = m.lanes := by
  have noExpiry : expireTracks m = m := by
    have none : m.track.table.filter (overdue m) = [] := List.filter_eq_nil_iff.mpr fun x mem => by simp [fresh x mem]
    rw [expireTracks, none]
    rfl
  by_cases notEnd : u = .windowEnd
  · simp [notEnd, Machine.roundTask, h.cutWindow_eq]
  by_cases notStart : u = .windowStart
  · simp [notStart, Machine.roundTask, h.windowAtRound_eq]
  by_cases notExpiry : u = .trackExpiry
  · simp [notExpiry, Machine.roundTask, noExpiry]
  obtain ⟨-, -, table, -⟩ := roundTask_afterWindow how sense u notStart notRest notEnd notExpiry m
  refine ⟨table, ?_⟩
  cases u <;> simp [Machine.roundTask] at notRest notSound notEnd notStart notExpiry ⊢

theorem CodesAwaited.roundTask {s m : State} {later : List RoundTask} {u : RoundTask} (h : CodesAwaited s (u :: later) m)
    (fresh : ∀ x ∈ s.track.table, (s.line.round + 1 - x.lastRead).toNat ≤ s.host.params.linger)
    (last : ∀ k, s.lanes.left = .SOUNDING k ∨ s.lanes.right = .SOUNDING k → 2 ≤ k) (once : u ∉ later) (how : RoundHow)
    (sense : DriveSense) (notRest : u ≠ .dormantTimer) : CodesAwaited s later (Machine.roundTask how sense u m) := by
  obtain ⟨noWindow, field, table, round, params, untouched, left, right⟩ := h
  obtain ⟨sameField, stillNone⟩ := noWindow.roundTask how sense notRest
  by_cases sound : u = .soundTimers
  · subst sound
    obtain ⟨left', right', ticked, sameLeft, sameRight⟩ := soundTimers_last (untouched List.mem_cons_self) last
    have taken : Machine.roundTask how sense .soundTimers m = _ := ticked
    rw [taken] at sameField stillNone ⊢
    exact ⟨stillNone, field, table, round, params, fun mem => absurd mem once, sameLeft, sameRight⟩
  · have notOverdue : ∀ x ∈ m.track.table, overdue m x = false := fun x mem => by
      have young := fresh x (table ▸ mem)
      rw [overdue, decide_eq_false_iff_not, State.params, params, roundsSince, State.now, round]
      exact Nat.not_lt.mpr young
    obtain ⟨sameTable, lanes⟩ := noWindow.tracks_kept notOverdue how sense notRest sound
    exact ⟨stillNone, sameField.trans field, sameTable.trans table, by simpa using round, by simpa using params,
      fun mem => lanes.trans (untouched (List.mem_cons_of_mem u mem)), lanes ▸ left, lanes ▸ right⟩

/-- A round start that ends no window, expires no track and hushes no machine forms the codes of the machines as they were. -/
theorem roundStart_codes {how : RoundHow} {timer : Nat} {input : RoundInput} {s : State} (rest : restNotDue s)
    (noWindow : NoWindow s) (fresh : ∀ x ∈ s.track.table, (s.line.round + 1 - x.lastRead).toNat ≤ s.host.params.linger)
    (last : ∀ k, s.lanes.left = .SOUNDING k ∨ s.lanes.right = .SOUNDING k → 2 ≤ k) :
    (roundStart how timer input s).line.slotWord.left = codeOfMachine s .left s.lanes.left ∧
      (roundStart how timer input s).line.slotWord.right = codeOfMachine s .right s.lanes.right := by
  obtain ⟨idle, grant, notLone⟩ := noWindow
  refine roundStart_part (part := .slotWord) (by decide) (CodesAwaited s)
    (fun m => m.line.slotWord.left = codeOfMachine s .left s.lanes.left ∧
      m.line.slotWord.right = codeOfMachine s .right s.lanes.right) rest
    (fun u _ notRest _ later once m h => h.roundTask fresh last once how input.sense notRest)
    (fun _ _ _ ⟨noWindow, field, table, round, params, untouched, left, right⟩ =>
      ⟨noWindow.onSupply _, field, table, round, params, fun mem => untouched (List.mem_cons_of_mem _ mem), left, right⟩)
    (fun m straps _ h => ?_) (fun u notWord notRest _ m h => ?_) (fun _ _ h => h) (fun _ _ _ h => h)
    (fun _ => ⟨⟨idle, grant, notLone⟩, rfl, rfl, rfl, rfl, fun _ => rfl, .inl rfl, .inl rfl⟩)
  · have code : ∀ l, laneCodeNow m l = codeOfMachine s l (laneState m l) := fun l =>
      (laneCodeNow_eq m l).trans (codeOfMachine_congr l _ h.field h.table straps)
    exact ⟨(code .left).trans (codeOfMachine_same s .left h.left), (code .right).trans (codeOfMachine_same s .right h.right)⟩
  · have word : (roundTask how input.sense u m).line.slotWord = m.line.slotWord := by
      cases u <;> simp [roundTask] at notWord notRest ⊢
    rw [word]
    exact h

/-! ## The statement -/

/-- A start mark at the end of a SYNCED round. -/
theorem markEnd_synced {began length : Nat} {s : State} (input : RoundInput) (running : heldInReset s = false)
    (synced : s.line.state = .SYNCED) (long : 8 ≤ length) (late : 17572 ≤ began) :
    exec (.markEnd began length input) s = .next (roundStart .startMark length input (markReleased s)) :=
  (exec_running _ running).trans (congrArg _ (endMark_startMark input (followsMarks_of (.inl synced)) long late))

theorem noWindow_markReleased {s : State} (synced : s.line.state = .SYNCED) (idle : s.field.window = none)
    (grant : s.access.grant = false) : NoWindow (markReleased s) :=
  ⟨idle, grant, by simp [markReleased, synced]⟩

/-- A lane is occupied by the tracks whose side names it (R140), told by the side. -/
theorem occupied_eq (s : State) (l : LaneSide) :
    occupied s l = s.track.table.any fun x =>
      match x.side, l with
      | .LEFT, .left => true
      | .RIGHT, .right => true
      | .UNSURE, _ => hasLane s .left && hasLane s .right
      | .LEFT, .right => false
      | .RIGHT, .left => false := by
  unfold occupied
  congr 1
  funext x
  cases x.side <;> cases l <;> rfl

/-- Settles O14: the field class, the request decision, the quiet-round count and the lane codes, each at its part of the round
start that the mark brings. -/
theorem syncedRoundStart : Obligations.SyncedRoundStart := by
  unfold Obligations.SyncedRoundStart
  refine ⟨?_, ?_, ?_⟩
  · intro began length input s running synced rest long late next usable rival
    have fieldClass := roundStart_classSettled (timer := length) (input := input) (s := markReleased s) rest synced
    have requests := roundStart_requestSettled (how := .startMark) (timer := length) (input := input) (s := markReleased s)
      rest synced
    have rivals : freshRival (markReleased s) = true ↔ rival := freshRival_iff (markReleased s)
    refine ⟨_, markEnd_synced input running synced long late, fun granted => ?_, fun none alone => ?_, fun none rivalled => ?_,
      _, requests, ?_⟩
    · exact fieldClass.trans (if_pos granted)
    · exact fieldClass.trans ((if_neg (by simp [markReleased, none])).trans (if_neg (rivals.not.mpr alone)))
    · exact fieldClass.trans ((if_neg (by simp [markReleased, none])).trans (if_pos (rivals.mpr rivalled)))
    · rw [requestSettled, Bool.and_eq_true, coilUsable_iff, Bool.or_eq_true, decide_eq_true_iff, decide_eq_true_iff]
      rfl
  · intro length began input s running synced awake rest empty idle grant long late count
    have settled := roundStart_calmSettled (how := .startMark) (timer := length) (input := input) (s := markReleased s) rest
      (noWindow_markReleased synced idle grant) awake empty
    have rows : calmSettled (markReleased s) =
        if s.access.cadence = .CALM then (.CALM, s.access.quietRounds)
        else if s.host.params.calmAfter ≤ count then (.CALM, 0)
        else (.BRISK, count) := rfl
    rw [rows] at settled
    refine ⟨_, markEnd_synced input running synced long late, fun calm => ?_, fun brisk due => ?_, fun brisk few => ?_⟩
    · simpa [calm] using settled
    · simpa [brisk, due] using settled
    · simpa [brisk, Nat.not_le.mpr few] using settled
  · intro length began input s running synced rest idle grant long late fresh last has tracked code
    obtain ⟨left, right⟩ := roundStart_codes (how := .startMark) (timer := length) (input := input) (s := markReleased s) rest
      (noWindow_markReleased synced idle grant) fresh last
    have occupancy : ∀ l, tracked l = occupied s l := fun l => by
      rw [occupied_eq]
      rfl
    have codes : ∀ l machine, codeOfMachine (markReleased s) l machine = code l machine := fun l machine => by
      have lanes : ∀ l, has l = hasLane s l := fun l => by cases l <;> rfl
      simp only [code, lanes, occupancy]
      cases machine <;> rfl
    exact ⟨_, markEnd_synced input running synced long late, left.trans (codes .left _), right.trans (codes .right _)⟩


end Sys2Proof.Machine
end

section
/-! PROOFS. Every notice is read back from the bits its sender places (O34). -/

namespace Sys2Proof.Machine

/-! ## The entries of a notice (R197) -/

/-- A field is read back from its bits. -/
@[simp] theorem fieldOfBits_bitsOf {w : Nat} (x : BitVec w) : fieldOfBits w (bitsOf x) = x := by
  rw [fieldOfBits, natOfBits_bitsOf, BitVec.ofNat_toNat, BitVec.setWidth_eq]

/-- The coil is read back from its bit. -/
theorem coil_of_coilBit (c : Coil) : (if natOfBits [coilBit c] = 1 then Coil.S else Coil.H) = c := by
  cases c <;> rfl

/-- The fields of an entry: the item, then two more, of which the last may be of no bits. -/
theorem bitSlice_entry {item second third : List Bool} {m n : Nat} (items : item.length = 64) (seconds : second.length = m)
    (thirds : third.length = n) :
    bitSlice 0 64 (item ++ second ++ third) = item ∧ bitSlice 64 m (item ++ second ++ third) = second ∧
      bitSlice (64 + m) n (item ++ second ++ third) = third := by
  rw [List.append_assoc]
  refine ⟨bitSlice_part (before := []) rfl items, bitSlice_part items seconds, ?_⟩
  have last := bitSlice_part (before := item ++ second) (after := []) (by rw [List.length_append, items, seconds]) thirds
  rwa [List.append_nil, List.append_assoc] at last

/-- An entry has 72 bits, whatever the kind. -/
theorem bodyParts_width (body : NoticeBody) : ∀ e ∈ (bodyParts body).2, e.length = 72 := by
  cases body <;> simp [bodyParts]

/-- The entries are read back from their bits, by their kind. -/
theorem bodyOfBits_bodyParts (body : NoticeBody) : bodyOfBits (bodyParts body).1.toNat (bodyParts body).2 = body := by
  cases body with
  | SIGHTING es =>
    refine congrArg NoticeBody.SIGHTING (List.map_map.trans (List.map_id'' (fun e => ?_) es))
    obtain ⟨item, best, coil⟩ :=
      bitSlice_entry (bitsOf_length e.item) (bitsOf_length e.best) (List.length_singleton (a := coilBit e.coil))
    simp only [Function.comp, item, best, coil, fieldOfBits_bitsOf, coil_of_coilBit]
  | VERDICT es =>
    refine congrArg NoticeBody.VERDICT (List.map_map.trans (List.map_id'' (fun e => ?_) es))
    obtain ⟨item, lane, verdict⟩ := bitSlice_entry (bitsOf_length e.item) (bitsOf_length e.lane) (bitsOf_length e.verdict)
    simp only [Function.comp, item, lane, verdict, fieldOfBits_bitsOf]
  | EXCUSE es =>
    refine congrArg NoticeBody.EXCUSE (List.map_map.trans (List.map_id'' (fun e => ?_) es))
    obtain ⟨item, life, -⟩ := bitSlice_entry (bitsOf_length e.item) (bitsOf_length e.life) List.length_nil
    rw [List.append_nil] at item life
    simp only [Function.comp, item, life, fieldOfBits_bitsOf]

theorem flatten_length {width : Nat} {parts : List (List Bool)} (wide : ∀ p ∈ parts, p.length = width) :
    parts.flatten.length = width * parts.length := by
  rw [List.length_flatten, List.map_congr_left wide, List.map_const', List.sum_replicate, smul_eq_mul, Nat.mul_comm]

/-- Fields of one width are read back in turn from where they stand together. -/
theorem bitSlices_flatten {width : Nat} {parts : List (List Bool)} (wide : ∀ p ∈ parts, p.length = width) :
    (List.range parts.length).map (fun i => bitSlice (width * i) width parts.flatten) = parts := by
  refine List.ext_getElem (by simp) fun i _ inside => ?_
  have start : (parts.take i).flatten.length = width * i := by
    rw [flatten_length fun p taken => wide p (List.mem_of_mem_take taken), List.length_take, Nat.min_eq_left inside.le]
  have slice := bitSlice_flatten parts i inside
  rw [start, wide _ (List.getElem_mem inside)] at slice
  simpa using slice

/-! ## The covered bits (R113, R197) -/

/-- The number of entries of a notice. -/
def entryCount (body : NoticeBody) : Nat := (bodyParts body).2.length

@[simp] theorem coveredBits_length (body : NoticeBody) : (coveredBits body).length = 6 + 72 * entryCount body := by
  have entries : (bodyParts body).2.flatten.length = 72 * entryCount body := flatten_length (bodyParts_width body)
  rw [coveredBits, List.length_append, List.length_append, bitsOf_length, bitsOf_length, entries]

/-- Kind, count and entries, each where it stands among the covered bits. -/
theorem coveredBits_read (body : NoticeBody) (few : entryCount body ≤ 8) :
    natOfBits (bitSlice 0 2 (coveredBits body)) = (bodyParts body).1.toNat ∧
      natOfBits (bitSlice 2 4 (coveredBits body)) = entryCount body ∧
      (List.range (entryCount body)).map (fun i => bitSlice (6 + 72 * i) 72 (coveredBits body)) = (bodyParts body).2 := by
  have parted : coveredBits body =
      bitsOf (bodyParts body).1 ++ (bitsOf (BitVec.ofNat 4 (entryCount body)) ++ (bodyParts body).2.flatten) :=
    List.append_assoc ..
  rw [parted]
  refine ⟨?_, ?_, ?_⟩
  · exact (congrArg natOfBits (bitSlice_part (before := []) rfl (bitsOf_length _))).trans (natOfBits_bitsOf _)
  · rw [bitSlice_part (bitsOf_length _) (bitsOf_length _), natOfBits_bitsOf, BitVec.toNat_ofNat, Nat.mod_eq_of_lt (by omega)]
  · refine Eq.trans (List.map_congr_left fun i _ => ?_) (bitSlices_flatten (bodyParts_width body))
    simp only [bitSlice]
    rw [← List.append_assoc, ← List.drop_drop, List.drop_left' (by simp)]

/-! ## The notice in its slot (R112, R117) -/

theorem noticeBits_length (c : SendClass) (station : Fin 16) (body : NoticeBody) :
    (noticeBits c station body).length = 27 + 72 * entryCount body := by
  simp only [noticeBits, arbitrationBits, List.length_append, List.length_cons, bitsOf_length, coveredBits_length]
  omega

/-- Class, station, covered bits and CRC, each where it stands in the slot. -/
theorem noticeBits_read (c : SendClass) (station : Fin 16) (body : NoticeBody) (rest : List Bool) :
    (noticeBits c station body ++ rest).headD true = classBit c ∧
      bitSlice 1 4 (noticeBits c station body ++ rest) = bitsOf (BitVec.ofNat 4 station.val) ∧
      bitSlice 5 (6 + 72 * entryCount body) (noticeBits c station body ++ rest) = coveredBits body ∧
      bitSlice (11 + 72 * entryCount body) 16 (noticeBits c station body ++ rest) = bitsOf (crc16 (coveredBits body)) := by
  have parted : noticeBits c station body ++ rest =
      arbitrationBits c station ++ (coveredBits body ++ (bitsOf (crc16 (coveredBits body)) ++ rest)) := by
    simp only [noticeBits, List.append_assoc]
  have opening : (arbitrationBits c station).length = 5 := by rw [arbitrationBits, List.length_cons, bitsOf_length]
  have closing : (arbitrationBits c station ++ coveredBits body).length = 11 + 72 * entryCount body := by
    rw [List.length_append, opening, coveredBits_length]
    omega
  rw [parted]
  refine ⟨rfl, bitSlice_part (before := [classBit c]) rfl (bitsOf_length _),
    bitSlice_part opening (coveredBits_length body), ?_⟩
  rw [← List.append_assoc]
  exact bitSlice_part closing (bitsOf_length _)

/-- A notice of 1 to 8 entries is a good one, whatever follows it in the slot (R117). -/
theorem noticeBody_noticeBits (c : SendClass) (station : Fin 16) {body : NoticeBody} (filled : 1 ≤ entryCount body)
    (few : entryCount body ≤ 8) (rest : List Bool) : noticeBody (noticeBits c station body ++ rest) = some body := by
  obtain ⟨-, -, covered, crc⟩ := noticeBits_read c station body rest
  obtain ⟨kind, count, entries⟩ := coveredBits_read body few
  have slice {first length : Nat} (inside : first + length ≤ 6 + 72 * entryCount body) :
      bitSlice (5 + first) length (noticeBits c station body ++ rest) = bitSlice first length (coveredBits body) := by
    rw [bitSlice_bitSlice inside, covered]
  have known : (bodyParts body).1.toNat ≠ 3 := by cases body <;> simp [bodyParts]
  have inner : (List.range (entryCount body)).map (fun i => bitSlice (11 + 72 * i) 72 (noticeBits c station body ++ rest)) =
      (bodyParts body).2 := by
    rw [← entries]
    refine List.map_congr_left fun i mem => ?_
    rw [← slice (by have := List.mem_range.mp mem; omega), ← Nat.add_assoc]
  rw [← slice (by omega)] at kind count
  simp only [noticeBody]
  rw [kind, count, covered, crc, inner, bodyOfBits_bodyParts]
  simp [known, Nat.ne_of_gt filled, few]

/-- The station of a notice is read back (R112). -/
theorem noticeStation_noticeBits (c : SendClass) (station : Fin 16) (body : NoticeBody) (rest : List Bool) :
    noticeStation (noticeBits c station body ++ rest) = station := by
  obtain ⟨-, bits, -⟩ := noticeBits_read c station body rest
  rw [noticeStation, bits, fieldOfBits_bitsOf]
  exact Fin.ext (Nat.mod_eq_of_lt station.isLt)

/-- Settles O34: class, station, covered bits and CRC each read back from where they stand, and the entries in turn from among
the covered bits. -/
theorem noticeRoundTrip : Obligations.NoticeRoundTrip := by
  unfold Obligations.NoticeRoundTrip
  intro c station body entries bits
  obtain ⟨filled, few⟩ : 1 ≤ entryCount body ∧ entryCount body ≤ 8 := by
    cases body <;> simpa [entryCount, bodyParts] using entries
  refine ⟨?_, noticeBody_noticeBits c station filled few _, noticeStation_noticeBits c station body _, ?_⟩
  · rw [List.length_append, List.length_replicate, noticeBits_length]
    omega
  · rw [(noticeBits_read c station body _).1]
    exact decide_eq_true_iff

end Sys2Proof.Machine
end

section
/-! PROOFS. Of two stations that read each other's slots, at most one is granted the field (O30). -/

namespace Sys2Proof.Machine

/-- What a requester drives dominant in its bit time puts it in the set (R96). -/
theorem inRequestSet_iff (levels : BitVec 20) (j : Fin 16) :
    (requestSetOf levels).getLsbD j.val = true ↔ levels.getLsbD (j.val + j.val / 7) = false := by
  rw [requestSetOf_getLsbD, Bool.not_eq_true', dataTime]

/-- The grant held after the request field is the grant rule's, for the set read there (R96, R126). -/
theorem requestFieldEnd_grant {levels : BitVec 20} {s s' : State} (running : heldInReset s = false)
    (synced : s.line.state = .SYNCED) (step : exec (.requestFieldEnd levels) s = .next s') :
    s'.access.grant = grantRule s (requestSetOf levels) := by
  rw [exec_running _ running, effect, endRequests, if_pos synced] at step
  cases step
  rfl

/-- A station that is granted the field yields to no requester within its reach (R126). -/
theorem not_precedes_of_granted {levels : BitVec 20} {s s' : State} {j : Fin 16} (running : heldInReset s = false)
    (synced : s.line.state = .SYNCED) (step : exec (.requestFieldEnd levels) s = .next s')
    (granted : s'.access.grant = true) (near : withinReach s j = true)
    (asks : levels.getLsbD (j.val + j.val / 7) = false) : ¬ precedes s j = true := by
  rw [requestFieldEnd_grant running synced step, grantRule_iff] at granted
  obtain ⟨-, yieldsToNone⟩ := granted
  exact yieldsToNone j near ((inRequestSet_iff levels j).mpr asks)

/-- Between two stations that read each other's class as held, precedence holds in exactly one direction: by class where the
classes differ, by number where they agree (R128). -/
theorem precedes_iff_not_precedes {s t : State} (apart : s.supply.straps.station.val ≠ t.supply.straps.station.val)
    (readsT : slotClass s.line.slots[t.supply.straps.station] = t.line.fieldClass)
    (readsS : slotClass t.line.slots[s.supply.straps.station] = s.line.fieldClass) :
    precedes s t.supply.straps.station = true ↔ ¬ precedes t s.supply.straps.station = true := by
  have byNumber : t.supply.straps.station.val < s.supply.straps.station.val ↔
      ¬ s.supply.straps.station.val < t.supply.straps.station.val := by omega
  rw [precedes_iff, precedes_iff, readsT, readsS, byNumber]
  cases s.line.fieldClass <;> cases t.line.fieldClass <;> simp

/-- Settles O30: each grant denies the other station precedence, and one of the two has it. -/
theorem noNeighboursBothGranted : Obligations.NoNeighboursBothGranted := by
  unfold Obligations.NoNeighboursBothGranted
  rintro levels s t s' t' v w runningS runningT syncedS syncedT nearT nearS asksS asksT slotT classT slotS classS stepS stepT
    ⟨grantS, grantT⟩
  obtain ⟨apart, -⟩ := (withinReach_iff t _).mp nearS
  have readsT : slotClass s.line.slots[t.supply.straps.station] = t.line.fieldClass := by rw [slotT, slotClass, classT]
  have readsS : slotClass t.line.slots[s.supply.straps.station] = s.line.fieldClass := by rw [slotS, slotClass, classS]
  have deniedT := not_precedes_of_granted runningS syncedS stepS grantS nearT asksT
  have deniedS := not_precedes_of_granted runningT syncedT stepT grantT nearS asksS
  exact deniedT ((precedes_iff_not_precedes apart readsT readsS).mpr deniedS)

end Sys2Proof.Machine
end

section
/-! PROOFS. The hush of the machines named, in the words of `hushed`: CLEAR and the lamps (O49), HUSH, REST and RESET (O60). -/

namespace Sys2Proof.Machine

/-! ## One machine hushed (R144, R147, R148, R151) -/

/-- A machine that sounds is put into HUSHED: the sounder stops unless the other machine sounds (R151, R157). -/
theorem setLane_hushed_sounder {l : LaneSide} {s : State} (sounding : sounds s l = true) :
    (setLane l (.HUSHED true) s).sounder = if sounds s (otherLane l) then s.sounder else silenced s.sounder := by
  have before : anySounding s = true := by cases l <;> simp [anySounding, sounding]
  have after : anySounding (putLane l (.HUSHED true) s) = sounds s (otherLane l) := by
    cases l <;> simp [anySounding, sounds, otherLane, putLane, laneState, hasLane, hasLeft, hasRight, State.station, isSounding]
  simp only [setLane, before, after]
  cases sounds s (otherLane l) with
  | true => simp
  | false => simp [soundStop, silenced]

/-- The machine that is hushed stands as `hushOutcome` says (R148). -/
theorem hushOutcome_eq (s : State) (l : LaneSide) : hushOutcome s l = if laneFree s l then .ARMED else .HUSHED true := by
  have free : laneFree s l = true ↔
      occupied s l = false ∧ (peerRecord s l).confirmed ≠ .code .SOUND ∧ (peerRecord s l).confirmed ≠ .code .HUSH_OCC := by
    simp [laneFree, blocksRearm]
  simp only [hushOutcome, free]

theorem isSounding_iff (m : LaneState) : isSounding m = true ↔ ∃ k, m = .SOUNDING k := by
  cases m <;> simp [isSounding]

/-- A machine that sounds is hushed: its own state, its report, and the sounder unless the other machine sounds. -/
theorem hushLane_sounds {l : LaneSide} (cause : LaneCause) {s : State} (sounding : sounds s l = true) :
    hushLane l cause s =
      { s with
        lanes := (putLane l (hushOutcome s l) s).lanes
        sounder := if sounds s (otherLane l) then s.sounder else silenced s.sounder
        host := recorded s.line.round (.LANE (laneNumber s l) false cause) s.host } := by
  obtain ⟨has, machine⟩ := Bool.and_eq_true_iff.mp sounding
  obtain ⟨k, sounding'⟩ := (isSounding_iff _).mp machine
  obtain ⟨lanes, host⟩ := hushLane_sounding cause has sounding'
  have sounder : (hushLane l cause s).sounder = (setLane l (.HUSHED true) s).sounder := by
    simp [hushLane, sounding, rearm_rearmed]
  rw [setLane_hushed_sounder sounding] at sounder
  rw [← hushOutcome_eq] at lanes
  ext1 <;> simp [lanes, host, sounder]

/-- A hush of one machine, in the words of the statements. -/
theorem hushLane_eq (l : LaneSide) (cause : LaneCause) (s : State) : hushLane l cause s = hushed (fun m => m = l) cause s := by
  by_cases sounding : sounds s l = true
  · rw [hushLane_sounds cause sounding]
    cases l with
    | left => cases other : sounds s .right <;> simp [hushed, sounding, otherLane, putLane, other]
    | right => cases other : sounds s .left <;> simp [hushed, sounding, otherLane, putLane, other]
  · rw [hushLane, if_neg sounding]
    rw [Bool.not_eq_true] at sounding
    cases l <;> simp [hushed, sounding]

/-! ## Both machines hushed (R139, R146, R147) -/

/-- A machine that is hushed sounds no more. -/
theorem hushOutcome_silent (s : State) (l : LaneSide) : isSounding (hushOutcome s l) = false := by
  unfold hushOutcome
  split <;> rfl

/-- A hush of both machines, left before right, in the words of the statements. -/
theorem hushBoth_eq (cause : LaneCause) (s : State) : hushBoth cause s = hushed (fun _ => true) cause s := by
  rw [hushBoth]
  by_cases left : sounds s .left = true
  · generalize hushing : hushLane .left cause s = m
    rw [hushLane_sounds cause left] at hushing
    have sameRight : sounds m .right = sounds s .right := by rw [← hushing]; rfl
    by_cases right : sounds s .right = true
    · have quietLeft : sounds m .left = false := by
        rw [← hushing]
        simp [sounds, laneState, putLane, hushOutcome_silent]
      have outcome : hushOutcome m .right = hushOutcome s .right := by rw [← hushing]; rfl
      have number : laneNumber m .right = laneNumber s .right := by rw [← hushing]; rfl
      rw [hushLane_sounds cause (sameRight.trans right), otherLane, quietLeft, outcome, number, ← hushing]
      simp [hushed, left, right, otherLane, putLane]
    · rw [Bool.not_eq_true] at right
      rw [hushLane, if_neg (by rw [sameRight, right]; exact Bool.false_ne_true), ← hushing]
      simp [hushed, left, right, otherLane, putLane]
  · rw [Bool.not_eq_true] at left
    have same : hushLane .left cause s = s := by rw [hushLane, if_neg (by simp [left])]
    rw [same, hushLane_eq]
    simp [hushed, left]

/-! ## CLEAR and the lamps (R145, R146, R150) -/

/-- A command taken while the part runs leaves what its effect is. -/
theorem exec_taken {c : Instr} {s t : State} (running : heldInReset s = false) (taken : effect c s = t) : exec c s = .next t :=
  (exec_running c running).trans (congrArg _ taken)

/-- The part with its CLEAR filter after a sample (R145). -/
def clearSampled (pressed : Bool) (s : State) : State :=
  { s with lanes := { s.lanes with clear := filterClear pressed s.lanes.clear } }

/-- A sample that accepts no press moves the filter alone (R145). -/
theorem sampleClear_noPress {pressed : Bool} {s : State}
    (noPress : (filterClear pressed s.lanes.clear).pressed = false ∨ s.lanes.clear.pressed = true) :
    sampleClear pressed s = clearSampled pressed s := by
  have notAccepted : ¬ ((filterClear pressed s.lanes.clear).pressed && !s.lanes.clear.pressed) = true := by
    rcases noPress with released | was <;> simp [*]
  exact if_neg notAccepted

/-- An accepted press hushes every machine that sounds (R146). -/
theorem sampleClear_press {pressed : Bool} {s : State} (accepted : (filterClear pressed s.lanes.clear).pressed = true)
    (was : s.lanes.clear.pressed = false) :
    sampleClear pressed s = hushed (fun _ => true) .STAFF (clearSampled pressed s) := by
  rw [← hushBoth_eq]
  exact if_pos (by simp [accepted, was])

/-- A sample that presses a RELEASED filter is a pressed one (R145). -/
theorem pressed_of_accepted {pressed : Bool} {f : ClearFilter} (accepted : (filterClear pressed f).pressed = true)
    (was : f.pressed = false) : pressed = true := by
  simp only [filterClear, was] at accepted
  split at accepted
  · exact accepted
  · exact absurd accepted Bool.false_ne_true

theorem toggleFlash_hushed {l : LaneSide} {lit : Bool} {s : State} (has : hasLane s l = true)
    (machine : laneState s l = .HUSHED lit) : toggleFlash l s = putLane l (.HUSHED !lit) s := by
  simp [toggleFlash, has, machine]

theorem toggleFlash_still {l : LaneSide} {s : State} (notHushed : isHushed (laneState s l) = false) : toggleFlash l s = s := by
  unfold toggleFlash
  cases machine : laneState s l with
  | HUSHED lit => simp [machine, isHushed] at notHushed
  | ARMED => simp
  | SOUNDING k => simp

/-- Settles O49: the sample that accepts a press, every other sample, and the lamp that flashes. -/
theorem clearAndFlash : Obligations.ClearAndFlash := by
  unfold Obligations.ClearAndFlash
  intro pressed l s running f sampled
  refine ⟨fun noPress => ?_, fun accepted was => ?_, fun lit left has machine => ?_, fun lit right has machine => ?_,
    fun notHushed => ?_⟩
  · exact exec_taken running (sampleClear_noPress noPress)
  · obtain rfl := pressed_of_accepted accepted was
    have hushes := sampleClear_press accepted was
    exact ⟨exec_taken running hushes, exec_taken running hushes⟩
  · subst left
    exact exec_taken running (toggleFlash_hushed (by simpa [hasLane, hasLeft, State.station] using has) machine)
  · subst right
    exact exec_taken running (toggleFlash_hushed (by simpa [hasLane, hasRight] using has) machine)
  · exact exec_taken running (toggleFlash_still notHushed)

end Sys2Proof.Machine
end

section
/-! PROOFS. The commands HUSH, REST and RESET (O60). -/

namespace Sys2Proof.Machine

/-! ## Records made while a response is outstanding (R175, R181, R184) -/

/-- The part with its host port after the complete frame `f`, answered by `r`. -/
def respondedTo (f : Frame) (r : Response) (s : State) : State := { s with host := answered f r s.host }

/-- A record that is made, or not, begins no REPORT frame while a response is outstanding: the response stands to it either
way. -/
theorem answered_recorded (f : Frame) (r : Response) (now : Round) (body : ReportBody) (made : Bool) {h : HostPort}
    (busy : h.outstanding ≠ none) :
    answered f r (if made then recorded now body h else h) =
      if made then recorded now body (answered f r h) else answered f r h := by
  cases made with
  | false => rfl
  | true => by_cases room : h.ring.length < Config.ringCapacity <;> simp [recorded, answered, room, busy]

/-- A record leaves the receiver, its buffer and the response that is outstanding. -/
theorem recorded_port (now : Round) (body : ReportBody) (made : Bool) (h : HostPort) :
    (if made then recorded now body h else h).receiver = h.receiver ∧
      (if made then recorded now body h else h).buffer = h.buffer ∧
      (if made then recorded now body h else h).outstanding = h.outstanding := by
  unfold recorded
  split
  · split <;> exact ⟨rfl, rfl, rfl⟩
  · exact ⟨rfl, rfl, rfl⟩

theorem hushed_port (named : LaneSide → Bool) (cause : LaneCause) (s : State) :
    (hushed named cause s).host.receiver = s.host.receiver ∧ (hushed named cause s).host.buffer = s.host.buffer ∧
      (hushed named cause s).host.outstanding = s.host.outstanding := by
  simp only [hushed, recorded_port, and_self]

/-- The LANE records of a hush wait behind a response that is outstanding (R175, R184). -/
theorem respondedTo_hushed (f : Frame) (r : Response) (named : LaneSide → Bool) (cause : LaneCause) {s : State}
    (busy : s.host.outstanding ≠ none) : respondedTo f r (hushed named cause s) = hushed named cause (respondedTo f r s) := by
  have host : answered f r (hushed named cause s).host = (hushed named cause (respondedTo f r s)).host := by
    refine (answered_recorded f r _ _ _ ?_).trans ?_
    · simpa only [recorded_port] using busy
    · rw [answered_recorded f r _ _ _ busy]
      rfl
  rw [respondedTo, host]
  rfl

/-! ## HUSH (R147) -/

/-- The lanes that the argument of a HUSH names (R147, R200). -/
def hushNames (arg : Byte) : LaneSide → Bool
  | .left => arg = 1 || arg = 3
  | .right => arg = 2 || arg = 3

/-- Whether a HUSH names a lane that the station has (R147). -/
def hushReaches (arg : Byte) (s : State) : Bool :=
  hushNames arg .left && hasLane s .left || hushNames arg .right && hasLane s .right

theorem hushNames_rows :
    hushNames 1 = (fun m => decide (m = .left)) ∧ hushNames 2 = (fun m => decide (m = .right)) ∧ hushNames 3 = fun _ => true := by
  refine ⟨?_, ?_, ?_⟩ <;> funext m <;> cases m <;> rfl

theorem hushReaches_iff (arg : Byte) (s : State) :
    hushReaches arg s = true ↔
      arg = 1 ∧ hasLeft s = true ∨ arg = 2 ∧ hasRight s = true ∨ arg = 3 ∧ (hasLeft s || hasRight s) = true := by
  simp only [hushReaches, hushNames, hasLane, Bool.or_eq_true, Bool.and_eq_true, decide_eq_true_eq]
  tauto

/-- A HUSH that names a lane of the station hushes the machines named, and answers their states (R147). -/
theorem actHush_reaches {arg : Byte} {s : State} (reaches : hushReaches arg s = true) :
    actHush arg s =
      { state := hushed (hushNames arg) .HOST s, answer := .DONE (laneBytes (hushed (hushNames arg) .HOST s)) } := by
  obtain ⟨left, right, both⟩ := hushNames_rows
  rcases (hushReaches_iff arg s).mp reaches with ⟨rfl, has⟩ | ⟨rfl, has⟩ | ⟨rfl, has⟩
  · rw [left, ← hushLane_eq]
    exact if_pos has
  · rw [right, ← hushLane_eq]
    exact if_pos has
  · rw [both, ← hushBoth_eq]
    exact if_pos has

/-- A HUSH that names no lane of the station is refused (R147). -/
theorem actHush_noLane {arg : Byte} {s : State} (first : 1 ≤ arg.toNat) (last : arg.toNat ≤ 3)
    (reaches : hushReaches arg s = false) : actHush arg s = refuse .NO_LANE s := by
  have misses := (hushReaches_iff arg s).not.mp (Bool.eq_false_iff.mp reaches)
  have named : arg = 1 ∨ arg = 2 ∨ arg = 3 := by bv_omega
  rcases named with rfl | rfl | rfl
  · exact if_neg fun has => misses (.inl ⟨rfl, has⟩)
  · exact if_neg fun has => misses (.inr (.inl ⟨rfl, has⟩))
  · exact if_neg fun has => misses (.inr (.inr ⟨rfl, has⟩))

/-! ## The statement -/

/-- A response is made to a frame that has been received whole (R174, R175). -/
theorem respond_received {f : Frame} (r : Response) {s : State} (hunts : s.host.receiver = .HUNT)
    (received : s.host.buffer = { length := f.payload.length, code := f.code, payload := f.payload }) :
    respond r s = respondedTo f r s := by
  simp only [respond, respondedTo, answered, State.onHost, ← hunts, ← received]

/-- The response to a HUSH, whatever stood for it while the machines were hushed (R147, R175). -/
theorem respond_hushed (f : Frame) (r x : Response) (named : LaneSide → Bool) (s : State) :
    respond r (hushed named .HOST (claimed f s)) =
      respondedTo f r (hushed named .HOST { s with host := { s.host with outstanding := some x } }) := by
  obtain ⟨hunts, received, -⟩ := hushed_port named .HOST (claimed f s)
  rw [respond_received r (f := f) hunts received, respondedTo_hushed f r named .HOST (by simp [claimed, claimResponse]),
    respondedTo_hushed f r named .HOST (by simp)]
  rfl

/-- Settles O60: each command acts once its response is claimed. -/
theorem hushRestAndReset : Obligations.HushRestAndReset := by
  unfold Obligations.HushRestAndReset
  constructor
  · intro arg s taken has named code reply claim quieted
    have names : named = hushNames arg := by
      funext l
      cases l <;> rfl
    have reach : (named .left && has .left || named .right && has .right) = hushReaches arg s := by rw [names]; rfl
    rw [reach]
    refine ⟨fun reaches => ?_, fun first last misses => ?_, fun sounding => ?_, fun silent => ?_⟩
    · have acts := commandFrame_acts (code := 0x0D) (length := 1) (payload := [arg]) taken rfl (by decide) (actHush_reaches reaches)
      refine exec_taken taken.1 (acts.trans ?_)
      rw [respond_hushed _ _ (reply 0x8D []), ← names]
      rfl
    · exact exec_taken taken.1 (commandFrame_acts (code := 0x0D) (length := 1) (payload := [arg]) taken rfl (by decide)
        (actHush_noLane first last misses))
    · have acts : actRest (claimed { code := 0x0F, payload := [] } s) = refuse .LANE_ACTIVE _ := if_pos sounding
      exact exec_taken taken.1 (commandFrame_acts (code := 0x0F) taken rfl (by decide) acts)
    · have acts : actRest (claimed { code := 0x0F, payload := [] } s) = { state := dormantEntry _, answer := .DONE [] } :=
        if_neg (Bool.eq_false_iff.mp silent)
      refine exec_taken taken.1 ((commandFrame_acts (code := 0x0F) taken rfl (by decide) acts).trans ?_)
      rw [dormantEntry_eq]
      rfl
  · intro s taken takes
    have resets : ∀ (scope : Byte) (kind : ResetScope),
        (∀ u, actReset scope u = { state := u, answer := .DONE [], reset := some kind }) →
        commandFrame 0x10 1 [scope] (actReset scope) s =
          respondedTo { code := 16, payload := [scope] } { frame := { code := 0x90, payload := [] }, reset := some kind } s :=
      fun scope kind acts => commandFrame_acts (length := 1) taken rfl (by decide) (acts _)
    exact ⟨exec_taken taken.1 (resets 1 .FULL fun _ => rfl), exec_taken taken.1 (resets 2 .ENGINE fun _ => rfl),
      exec_taken taken.1 (resets 3 .COUNTS fun _ => rfl)⟩

end Sys2Proof.Machine
end

section
/-! PROOFS. The sounder plays exactly while a lane machine sounds (O6). -/

namespace Sys2Proof.Machine

/-! ## What the sounder and the machines go by (R151, R157) -/

/-- The sounder plays exactly while a lane machine of the pedestal is SOUNDING (R151, R157). -/
def playsWithLanes (s : State) : Prop := s.sounder.playing = anySounding s

/-- Whether a machine sounds is all that the sounder goes by. -/
theorem plays_of_machines {s t : State} (h : playsWithLanes s) (playing : t.sounder.playing = s.sounder.playing)
    (straps : t.supply.straps = s.supply.straps) (left : isSounding t.lanes.left = isSounding s.lanes.left)
    (right : isSounding t.lanes.right = isSounding s.lanes.right) : playsWithLanes t := by
  have machines : anySounding t = anySounding s := by
    simp only [anySounding, sounds, hasLane_congr _ straps, laneState, left, right]
  rw [playsWithLanes, playing, machines, h]

theorem plays_frame {s t : State} (h : playsWithLanes s) (sounder : t.sounder = s.sounder) (lanes : t.lanes = s.lanes)
    (straps : t.supply.straps = s.supply.straps) : playsWithLanes t :=
  plays_of_machines h (by rw [sounder]) straps (by rw [lanes]) (by rw [lanes])

/-- No machine sounds, and the sounder is IDLE. -/
theorem plays_silent {s : State} (idle : s.sounder.playing = false) (left : isSounding s.lanes.left = false)
    (right : isSounding s.lanes.right = false) : playsWithLanes s := by
  simp [playsWithLanes, anySounding, sounds, laneState, idle, left, right]

theorem putLane_plays {l : LaneSide} {st : LaneState} {s : State} (same : isSounding st = isSounding (laneState s l))
    (h : playsWithLanes s) : playsWithLanes (putLane l st s) := by
  cases l with
  | left => exact plays_of_machines h rfl rfl same rfl
  | right => exact plays_of_machines h rfl rfl rfl same

/-- Whatever state a machine is put into, the sounder is told (R151, R157). -/
theorem setLane_plays (l : LaneSide) (st : LaneState) {s : State} (h : playsWithLanes s) :
    playsWithLanes (setLane l st s) := by
  simp only [setLane]
  split
  · rename_i starts
    obtain ⟨-, sounding⟩ := Bool.and_eq_true_iff.mp starts
    exact (soundStart_playing _).trans sounding.symm
  · split
    · rename_i stops
      obtain ⟨-, silent⟩ := Bool.and_eq_true_iff.mp stops
      exact (Bool.not_eq_true' _ ▸ silent).symm
    · have same : anySounding (putLane l st s) = anySounding s := by
        cases before : anySounding s <;> cases after : anySounding (putLane l st s) <;> simp_all
      rw [playsWithLanes, same, ← h]
      simp

/-- Tracks, verdicts and field windows go by the machines (R70, R142, R148). -/
theorem plays_keptByWindows : KeptByWindows playsWithLanes where
  keepsTrack _ _ h := h
  keepsRecord _ _ h := plays_frame h (by simp) (by simp) (by simp)
  keepsNotice _ _ h := plays_frame h (by simp) (by simp) (by simp)
  keepsErrors _ _ h := h
  keepsCounts _ _ h := plays_frame h (by simp) (by simp) (by simp)
  keepsLane l st _ _ h := setLane_plays l st h
  keepsField _ _ h := h
  keepsPattern _ _ h := h
  keepsQuiet _ h := h
  keepsStir _ h := h

theorem hushLane_plays (l : LaneSide) (cause : LaneCause) {s : State} (h : playsWithLanes s) :
    playsWithLanes (hushLane l cause s) :=
  plays_keptByWindows.hushLane_keeps l cause h

/-! ## Peer codes, DORMANT entry, wake and the resets -/

/-- A machine whose peer code is lost re-arms, or stays (R143, R148). -/
theorem afterPeerLost_sounding (s : State) (l : LaneSide) : isSounding (afterPeerLost s l) = isSounding (laneState s l) := by
  unfold afterPeerLost
  split
  · rename_i rearms
    obtain ⟨-, hushed, -⟩ := rearms
    cases machine : laneState s l <;> simp [machine, isHushed] at hushed
    rfl
  · rfl

theorem peersLost_plays {s t : State} (h : playsWithLanes s) (playing : t.sounder.playing = s.sounder.playing)
    (straps : t.supply.straps = s.supply.straps) (lanes : t.lanes = lanesAfterPeersLost s) : playsWithLanes t :=
  plays_of_machines h playing straps (by rw [lanes]; exact afterPeerLost_sounding s .left)
    (by rw [lanes]; exact afterPeerLost_sounding s .right)

theorem dormantEntry_plays (s : State) : playsWithLanes (dormantEntry s) := by
  rw [dormantEntry_eq]
  exact plays_silent rfl rfl rfl

theorem wake_plays (cadence : Cadence) {s : State} (h : playsWithLanes s) : playsWithLanes (wake cadence s) := by
  by_cases clashed : s.line.state = .CLASHED
  · refine peersLost_plays (s := s) h ?_ ?_ ?_ <;>
      simp only [wake, onLine_line, onAccess_line, dormantTimerZero_frame, onSupply_line, clashed, if_true, clearPeers_eq] <;> rfl
  · rw [wake_eq cadence s clashed]
    exact peersLost_plays h rfl rfl rfl

theorem engineReset_plays (s : State) : playsWithLanes (engineReset s) := by
  refine plays_silent ?_ ?_ ?_ <;>
    simp [engineReset, dormantTimerZero, freshClasses, clearPeers_eq, armLanes, soundStop, lanesAfterPeersLost, afterPeerLost,
      laneState, isHushed, isSounding]

theorem powerOnState_plays (cause : ResetCause) (straps : Straps) (s : State) : playsWithLanes (powerOnState cause straps s) :=
  plays_silent rfl rfl rfl

theorem observe_plays (l : LaneSide) (seen : PeerCode) {s : State} (h : playsWithLanes s) :
    playsWithLanes (observe l seen s) := by
  have put : ∀ r, playsWithLanes (putPeer l r s) := fun r => by cases l <;> exact h
  simp only [observe]
  generalize (if (peerRecord s l).lastSeen = some seen then seen else (peerRecord s l).confirmed) = confirmed
  split
  · exact put _
  · refine plays_keptByWindows.takePeerCode_keeps l _ _ ?_
    split <;> exact put _

/-! ## The round start -/

theorem soundTick_plays (l : LaneSide) {s : State} (h : playsWithLanes s) : playsWithLanes (soundTick l s) := by
  unfold soundTick
  split
  · split
    · rename_i sounding
      split
      · exact hushLane_plays l _ h
      · exact putLane_plays (by rw [sounding]; rfl) h
    · exact h
    · exact h
  · exact h

theorem pendingTest_plays {s : State} (h : playsWithLanes s) : playsWithLanes (pendingTest s) := by
  unfold pendingTest
  split
  · exact dormantEntry_plays s
  · exact h

theorem quietMinuteTurn_plays {s : State} (h : playsWithLanes s) : playsWithLanes (quietMinuteTurn s) := by
  simp only [quietMinuteTurn]
  split
  · split
    · exact dormantEntry_plays _
    · exact h
  · exact h

theorem dormantAdvance_plays {s : State} (h : playsWithLanes s) : playsWithLanes (dormantAdvance s) := by
  unfold dormantAdvance
  split
  · split
    · refine pendingTest_plays ?_
      split
      · exact quietMinuteTurn_plays h
      · exact h
    · exact h
  · exact h

theorem roundTask_plays (how : RoundHow) (sense : DriveSense) (u : RoundTask) {s : State} (h : playsWithLanes s) :
    playsWithLanes (roundTask how sense u s) := by
  cases u
  case windowEnd => exact plays_keptByWindows.cutWindow_keeps h
  case trackExpiry => exact plays_keptByWindows.expireTracks_keeps h
  case soundTimers => exact soundTick_plays .right (soundTick_plays .left h)
  case dormantTimer => exact dormantAdvance_plays h
  case windowStart =>
    simp only [roundTask, windowAtRound]
    split
    · exact plays_keptByWindows.startWindow_keeps sense (s := s.onAccess _) h
    · exact h
  all_goals exact plays_frame h (by simp [roundTask]) (by simp [roundTask]) (by simp)

theorem roundStart_plays (how : RoundHow) (timer : Nat) (input : RoundInput) {s : State} (h : playsWithLanes s) :
    playsWithLanes (roundStart how timer input s) :=
  roundStart_keeps playsWithLanes how timer input (fun _ h => h) (fun u _ h => roundTask_plays how _ u h) (fun _ _ _ h => h) h

/-! ## The commands of the line -/

theorem endMark_plays (began length : Nat) (input : RoundInput) {s : State} (h : playsWithLanes s) :
    playsWithLanes (endMark began length input s) := by
  have cut : ∀ u, playsWithLanes u → playsWithLanes (framingError began u) := fun u hu => by
    rw [framingError_eq]
    exact hu
  unfold endMark
  simp only
  split
  · exact h
  · split
    · split
      · exact roundStart_plays _ _ _ (cut _ h)
      · exact roundStart_plays _ _ _ (s := releaseDriver (runEnds s)) h
    · split
      · exact roundStart_plays _ _ _ (s := (runEnds s).onLine _) h
      · exact h

theorem expireTimer_plays (input : RoundInput) {s : State} (h : playsWithLanes s) : playsWithLanes (expireTimer input s) := by
  unfold expireTimer
  split
  · split
    · exact h
    · exact roundStart_plays _ _ _ (s := s.onLine _) h
  · split
    · exact roundStart_plays _ _ _ h
    · exact h

theorem startIfDue_plays (timer : Nat) (input : RoundInput) {s : State} (h : playsWithLanes s) :
    playsWithLanes (startIfDue timer input s) := by
  unfold startIfDue
  split
  · exact roundStart_plays _ _ _ h
  · exact h

theorem stickLine_plays (timer : Nat) (input : RoundInput) {s : State} (h : playsWithLanes s) :
    playsWithLanes (stickLine timer input s) := by
  unfold stickLine
  split
  · rw [loneEntry_eq]
    exact startIfDue_plays timer input (peersLost_plays h rfl rfl rfl)
  · exact h

theorem freeTiming_plays (timer : Nat) (input : RoundInput) {s : State} (h : playsWithLanes s) :
    playsWithLanes (freeTiming timer input s) := by
  unfold freeTiming
  split
  · refine startIfDue_plays timer input ?_
    rw [freeEntry_eq]
    by_cases clashed : s.line.state = .CLASHED
    · exact peersLost_plays h rfl rfl (if_pos clashed)
    · exact plays_frame h rfl (if_neg clashed) rfl
  · exact h

theorem leaveLone_plays {s : State} (h : playsWithLanes s) : playsWithLanes (leaveLone s) := by
  unfold leaveLone
  split
  · rw [listenEntry_eq]
    exact peersLost_plays (plays_keptByWindows.keepsRecord _ (abandonWindow (lineQuiet s)) h) rfl rfl rfl
  · exact h

theorem followAgain_plays {s : State} (h : playsWithLanes s) : playsWithLanes (followAgain s) := by
  unfold followAgain
  split
  · exact plays_keptByWindows.keepsRecord _ ((lineQuiet s).onLine _) h
  · exact h

theorem readBackOwn_plays (bits : BitVec 16) {s : State} (h : playsWithLanes s) : playsWithLanes (readBackOwn bits s) := by
  unfold readBackOwn
  simp only
  split
  · split
    · exact h
    · split
      · rw [clashEntry_eq]
        exact h
      · exact h
  · exact h

theorem handCode_plays (j : Fin 16) (o : SlotOutcome) {s : State} (h : playsWithLanes s) : playsWithLanes (handCode j o s) := by
  unfold handCode
  split
  · split
    · exact h
    · exact observe_plays .left _ h
  · split
    · split
      · exact h
      · exact observe_plays .right _ h
    · exact h

theorem handCalm_plays (j : Fin 16) (value : Cadence) {s : State} (h : playsWithLanes s) :
    playsWithLanes (handCalm j value s) := by
  unfold handCalm
  simp only
  split
  · split
    · split
      · exact wake_plays .CALM (s := s.onAccess _) h
      · exact h
    · exact h
  · exact h

theorem handBeams_plays (j : Fin 16) (o : SlotOutcome) {s : State} (h : playsWithLanes s) :
    playsWithLanes (handBeams j o s) := by
  unfold handBeams
  split <;> exact h

theorem slotEnd_plays (j : Fin 16) (o : SlotOutcome) {s : State} (h : playsWithLanes s) : playsWithLanes (slotEnd j o s) := by
  unfold slotEnd
  split
  · refine handCalm_plays j _ ?_
    split
    · exact handBeams_plays j o (handCode_plays j o (s := (putSlot j o s).onLine _) h)
    · exact h
  · exact h

/-- Notice slots tell neither the machines nor the sounder (R115 to R119). -/
theorem endNotice_plays (slot : Fin 24) (levels : List Bool) {s : State} (h : playsWithLanes s) :
    playsWithLanes (endNotice slot levels s) := by
  unfold endNotice
  simp only
  split
  · split
    · split
      · exact plays_frame h (by simp [putTimer]) (by simp [putTimer]) (by simp [putTimer])
      · exact h
    · split
      · exact plays_frame h (by simp [putTimer]) (by simp [putTimer]) (by simp [putTimer])
      · exact plays_frame h (by simp [putTimer]) (by simp [putTimer]) (by simp [putTimer])
  · exact h

/-! ## Lamps, CLEAR, beams and the sounder's own commands -/

theorem toggleFlash_plays (l : LaneSide) {s : State} (h : playsWithLanes s) : playsWithLanes (toggleFlash l s) := by
  unfold toggleFlash
  split
  · split
    · rename_i hushed
      exact putLane_plays (by rw [hushed]; rfl) h
    · exact h
    · exact h
  · exact h

theorem sampleClear_plays (pressed : Bool) {s : State} (h : playsWithLanes s) : playsWithLanes (sampleClear pressed s) := by
  unfold sampleClear
  simp only
  split
  · exact plays_keptByWindows.hushBoth_keeps .STAFF (s := s.onLanes _) h
  · exact h

theorem beamBreak_plays {s : State} (h : playsWithLanes s) : playsWithLanes (beamBreak s) := by
  unfold beamBreak
  simp only
  split
  · exact wake_plays .BRISK (s := s.onTrack _) h
  · exact h

theorem sampleBeams_plays (hall street : Beam) {s : State} (h : playsWithLanes s) :
    playsWithLanes (sampleBeams hall street s) := by
  unfold sampleBeams
  simp only
  split
  · split
    · exact h
    · split
      · exact beamBreak_plays (s := (s.onBeams _).onBeams _) h
      · exact h
  · exact h

/-- An entry start leaves a sounder that plays, or does not, as it is (R158). -/
theorem entryStart_playing (volume : Nat) (index : Fin 16) (u : Sounder) : (entryStart volume index u).playing = u.playing := by
  unfold entryStart
  split
  · rfl
  · split <;> rfl

theorem entryEnd_plays {s : State} (h : playsWithLanes s) : playsWithLanes (entryEnd s) := by
  unfold entryEnd
  split
  · exact plays_of_machines h (entryStart_playing _ _ _) rfl rfl rfl
  · exact h

theorem recheck_plays {s : State} (h : playsWithLanes s) : playsWithLanes (recheck s) := by
  unfold recheck
  split
  · exact plays_of_machines h (entryStart_playing _ _ _) rfl rfl rfl
  · exact h

theorem giveSample_plays {s : State} (h : playsWithLanes s) : playsWithLanes (giveSample s) := by
  have sampled : ∀ u : Sounder, (afterSample u).playing = u.playing := fun u => by
    unfold afterSample
    split <;> rfl
  unfold giveSample
  split
  · exact plays_of_machines (recheck_plays (entryEnd_plays h)) (sampled _) rfl rfl rfl
  · exact h

/-! ## The host's commands -/

/-- A frame moves the machines by what its command does alone, and by the wake (R174 to R176, R194). -/
theorem takeFrame_plays (f : Frame) (take : State → State × Response)
    (takes : ∀ s, playsWithLanes s → playsWithLanes (take s).1) {s : State} (h : playsWithLanes s) :
    playsWithLanes (takeFrame f take s) := by
  unfold takeFrame
  split
  · exact h
  · simp only
    split
    · exact h
    · refine takes _ ?_
      split
      · exact wake_plays .BRISK (s := frameReceived f s) h
      · exact h

theorem commandFrame_plays (code : Byte) (length : Nat) (payload : List Byte) (act : State → Taken)
    (acts : ∀ s, playsWithLanes s → playsWithLanes (act s).state) {s : State} (h : playsWithLanes s) :
    playsWithLanes (commandFrame code length payload act s) := by
  refine takeFrame_plays _ _ (fun u hu => ?_) h
  unfold takeCommand
  split
  · exact hu
  · exact acts u hu

theorem hushNamed_plays (left right : Bool) {s : State} (h : playsWithLanes s) : playsWithLanes (hushNamed left right s) := by
  have first : playsWithLanes (if left then hushLane .left .HOST s else s) := by
    split
    · exact hushLane_plays .left _ h
    · exact h
  unfold hushNamed
  simp only
  split
  · exact hushLane_plays .right _ first
  · exact first

theorem actHush_plays (arg : Byte) {s : State} (h : playsWithLanes s) : playsWithLanes (actHush arg s).state := by
  unfold actHush
  simp only
  split
  · split
    · exact hushNamed_plays true false h
    · exact h
  · split
    · split
      · exact hushNamed_plays false true h
      · exact h
    · split
      · split
        · exact hushNamed_plays true true h
        · exact h
      · exact h

/-- Every complete frame: HUSH and REST alone move the machines (R176, R200). -/
theorem completeFrame_plays (f : Frame) {s : State} (h : playsWithLanes s) : playsWithLanes (completeFrame f s) := by
  have queued : ∀ body u, playsWithLanes u → playsWithLanes (queueNotice body u) := plays_keptByWindows.keepsNotice
  unfold completeFrame
  simp only
  split
  case h_4 | h_5 | h_7 | h_8 | h_16 =>
    refine commandFrame_plays _ _ _ _ (fun u hu => ?_) h
    simp only [actCounts, actTakeCounts, actStream, actSet, actReset, refuse]
    (repeat' split) <;> exact hu
  case h_10 =>
    exact commandFrame_plays _ _ _ _ (fun u hu => queued _ _ (plays_frame hu (by simp) (by simp) (by simp))) h
  case h_11 => exact commandFrame_plays _ _ _ _ (fun u hu => queued _ (removeExcuse _ u) hu) h
  case h_13 => exact commandFrame_plays _ _ _ _ (fun u hu => actHush_plays _ hu) h
  case h_15 =>
    refine commandFrame_plays _ _ _ _ (fun u hu => ?_) h
    unfold actRest
    split
    · exact hu
    · exact dormantEntry_plays u
  case h_17 => exact takeFrame_plays _ _ (fun _ hu => hu) h
  all_goals exact commandFrame_plays _ _ _ _ (fun _ hu => hu) h

theorem receiveByte_plays (b : LinkByte) {s : State} (h : playsWithLanes s) : playsWithLanes (receiveByte b s) := by
  unfold receiveByte
  simp only
  split
  case h_5 =>
    split
    · exact h
    · exact completeFrame_plays _ h
  all_goals split <;> exact h

theorem receiveBytes_plays (bytes : List LinkByte) {s : State} (h : playsWithLanes s) : playsWithLanes (receiveBytes bytes s) :=
  foldl_holds_mem playsWithLanes _ _ (fun b _ _ hu => receiveByte_plays b hu) h

theorem byteGap_plays {s : State} (h : playsWithLanes s) : playsWithLanes (byteGap s) := by
  unfold byteGap
  split <;> exact h

theorem startDelivery_plays {s : State} (h : playsWithLanes s) : playsWithLanes (startDelivery s) := by
  unfold startDelivery
  split <;> exact h

theorem reportEnd_plays {s : State} (h : playsWithLanes s) : playsWithLanes (reportEnd s) := by
  unfold reportEnd
  split
  · simp only
    split
    · exact h
    · exact startDelivery_plays (s := s.onHost _) h
  · exact h

theorem responseEnd_plays (pins : StrapPins) {s : State} (h : playsWithLanes s) : playsWithLanes (responseEnd pins s) := by
  unfold responseEnd
  split
  · refine startDelivery_plays ?_
    unfold actOnReset
    split
    · exact h
    · exact powerOnState_plays _ _ _
    · exact engineReset_plays _
    · exact h
  all_goals exact h

/-! ## Every command -/

/-- Every command but a POWER-ON that holds the part keeps the sounder with the machines. -/
theorem effect_plays {c : Instr} (notHold : ∀ source, c ≠ .powerOnHold source) {s : State} (h : playsWithLanes s) :
    playsWithLanes (effect c s) := by
  have windows := plays_keptByWindows
  cases frame : hostFrameOf c with
  | some f => rw [effect_hostFrame frame]; exact completeFrame_plays f h
  | none =>
    cases c <;> simp only [hostFrameOf, reduceCtorEq] at frame
    case powerOnHold source => exact absurd rfl (notHold source)
    case powerOn last pins => exact powerOnState_plays _ _ s
    case markEnd began length input => exact endMark_plays began length input h
    case roundTimerExpiry input => exact expireTimer_plays input h
    case followingTimeout input =>
      simp only [effect, timeOutFollowing]
      split
      · exact roundStart_plays _ _ _ h
      · exact h
    case trackExpiry => exact windows.expireTracks_keeps h
    case soundLimitExpiry lane =>
      simp only [effect]
      split
      · exact hushLane_plays lane _ h
      · exact h
    case quietMinute =>
      simp only [effect]
      split
      · exact pendingTest_plays (quietMinuteTurn_plays h)
      · exact h
    case lineStuck timer input => exact stickLine_plays timer input h
    case lineStuckTimingFree timer input => exact freeTiming_plays timer input h
    case loneRecovery => exact leaveLone_plays h
    case timingFollowingRestored => exact followAgain_plays h
    case slotReceived station bits => exact slotEnd_plays station _ h
    case ownSlotReadback bits => exact readBackOwn_plays bits h
    case noticeSlotEnd slot levels => exact endNotice_plays slot levels h
    case replyWindowEnd reception sense => exact windows.closeWindow_keeps reception sense h
    case followCallEnd reception sense => exact windows.endCall_keeps reception sense h
    case halfSweepTimeLimit sense => exact windows.limitSweep_keeps sense h
    case sounderEntryEnd => exact entryEnd_plays h
    case sounderEndMarkerRecheck => exact recheck_plays h
    case flashToggle lane => exact toggleFlash_plays lane h
    case beamChange hall street => exact sampleBeams_plays hall street h
    case clearPress => exact sampleClear_plays true h
    case hostFrameBad bytes => exact receiveBytes_plays bytes h
    case hostByteGapTimeout before late => exact receiveByte_plays late (byteGap_plays (receiveBytes_plays before h))
    case responseSent pins => exact responseEnd_plays pins h
    case reportFrameSent => exact reportEnd_plays h
    case beamSample hall street => exact sampleBeams_plays hall street h
    case clearSample pressed => exact sampleClear_plays pressed h
    case sounderSample => exact giveSample_plays h
    case startMarkSend | calmEntry | cacheAgeing | staleNotice | minuteBoundary | listenTimeout | requestFieldEnd |
        noticeSlotStart | runTooShort =>
      simp only [effect, reachRoundEnd, calmTest, endRequests, startNotice, sendAfterRun]
      (repeat' split) <;> exact h

/-- Settles O6: held, the part takes POWER-ON alone, which holds it longer or resets it; running, every command keeps the sounder
with the machines, or holds the part. -/
theorem sounderFollowsLanes : Obligations.SounderFollowsLanes := by
  intro s t follows stepped
  obtain ⟨-, rfl⟩ | ⟨c, rest, -, rfl⟩ := step_cases stepped
  · exact follows
  · split
    · exact follows
    · rename_i taken
      intro runs
      by_cases hold : ∃ source, c = .powerOnHold source
      · obtain ⟨source, rfl⟩ := hold
        exact absurd (holdInReset_held source _) (Bool.eq_false_iff.mp runs)
      · cases held : heldInReset s with
        | false => exact effect_plays (fun source e => hold ⟨source, e⟩) (s := s.withPending rest) (follows held)
        | true =>
          cases c <;> simp [held, isPowerOn] at taken hold
          exact powerOnState_plays _ _ _

end Sys2Proof.Machine
end

section
/-! PROOFS. The sound limit, the quiet minute and the dormant timer at a round start (O21). -/

namespace Sys2Proof.Machine

/-! ## The sound limit (R144) -/

theorem soundLimitDue_iff (l : LaneSide) (s : State) :
    soundLimitDue l s = true ↔ hasLane s l = true ∧ ∃ k, laneState s l = .SOUNDING k ∧ k ≤ 1 := by
  unfold soundLimitDue
  cases machine : laneState s l <;> simp

/-! ## What bars and what brings a DORMANT entry (R191) -/

/-- What bars a DORMANT entry by the dormant timer: a machine that sounds, or a response to a RESET command (R191). -/
def restBarred (s : State) : Prop :=
  anySounding s = true ∨ ∃ r, s.host.outstanding = some r ∧ (r.frame.code = 0x90 ∨ r.frame.code = 0xD0)

theorem mayRest_iff (s : State) : mayRest s = true ↔ ¬ restBarred s := by
  rw [restBarred, ← resetOutstanding_iff, mayRest]
  cases anySounding s <;> cases resetOutstanding s <;> simp

theorem mayRest_barred {s : State} (barred : restBarred s) : mayRest s = false :=
  Bool.eq_false_iff.mpr fun may => (mayRest_iff s).mp may barred

/-- The quiet minutes after one more, which stop at 240 (R191). -/
def minutesAfter (s : State) : Nat := min 240 (s.supply.quietMinutes + 1)

/-- One more quiet minute brings a DORMANT entry (R191). -/
def entryDue (s : State) : Prop := s.host.params.dormantDelay ≠ 0 ∧ s.host.params.dormantDelay ≤ minutesAfter s

/-- The supply block after a quiet minute that brings no DORMANT entry at once (R191). -/
def minuteTaken (pending : Bool) (s : State) : SupplyUnit :=
  { s.supply with dormantRounds := 0, quietMinutes := minutesAfter s, pendingEntry := pending }

/-- A quiet minute brings no DORMANT entry, leaves it pending, or makes it at once (R191). -/
theorem quietMinuteTurn_rows (s : State) :
    (¬ entryDue s → quietMinuteTurn s = { s with supply := minuteTaken s.supply.pendingEntry s }) ∧
      (entryDue s → restBarred s → quietMinuteTurn s = { s with supply := minuteTaken true s }) ∧
      (entryDue s → ¬ restBarred s → quietMinuteTurn s = rested s) := by
  have due : (s.params.dormantDelay ≠ 0 && s.params.dormantDelay ≤ min 240 (s.supply.quietMinutes + 1)) = true ↔ entryDue s := by
    rw [Bool.and_eq_true, decide_eq_true_eq, decide_eq_true_eq]
    rfl
  refine ⟨fun notDue => ?_, fun isDue barred => ?_, fun isDue free => ?_⟩
  · exact if_neg (due.not.mpr notDue)
  · exact (if_pos (due.mpr isDue)).trans (if_neg (by simp [mayRest_barred barred]))
  · refine (if_pos (due.mpr isDue)).trans ((if_pos ((mayRest_iff s).mpr free)).trans ?_)
    rw [dormantEntry_eq]
    rfl

theorem pendingTest_still {s : State} (still : s.supply.dormancy = .DORMANT ∨ s.supply.pendingEntry = false ∨ restBarred s) :
    pendingTest s = s := by
  rcases still with dormant | none | barred
  · simp [pendingTest, dormant]
  · simp [pendingTest, none]
  · simp [pendingTest, mayRest_barred barred]

theorem pendingTest_made {s : State} (awake : s.supply.dormancy = .AWAKE) (pending : s.supply.pendingEntry = true)
    (free : ¬ restBarred s) : pendingTest s = rested s := by
  rw [← dormantEntry_eq]
  exact if_pos (by simp [awake, pending, (mayRest_iff s).mpr free])

/-! ## The dormant timer's part of a round start (R190, R191) -/

/-- The dormant timer's part at the round start of an AWAKE pedestal. -/
theorem dormantAdvance_rows {s : State} (awake : s.supply.dormancy = .AWAKE) :
    (quiet s = false → dormantAdvance s = dormantTimerZero s) ∧
      (quiet s = true → s.supply.dormantRounds + 1 < 3000 → s.supply.pendingEntry = false ∨ restBarred s →
        dormantAdvance s = { s with supply := { s.supply with dormantRounds := s.supply.dormantRounds + 1 } }) ∧
      (quiet s = true → 3000 ≤ s.supply.dormantRounds + 1 → s.supply.pendingEntry = false → ¬ entryDue s →
        dormantAdvance s = { s with supply := minuteTaken s.supply.pendingEntry s }) ∧
      (quiet s = true → 3000 ≤ s.supply.dormantRounds + 1 → entryDue s → restBarred s →
        dormantAdvance s = { s with supply := minuteTaken true s }) ∧
      (quiet s = true → ¬ restBarred s → s.supply.pendingEntry = true ∨ (3000 ≤ s.supply.dormantRounds + 1 ∧ entryDue s) →
        dormantAdvance s = rested s) := by
  have counts : quiet s = true → s.supply.dormantRounds + 1 < 3000 →
      dormantAdvance s = pendingTest { s with supply := { s.supply with dormantRounds := s.supply.dormantRounds + 1 } } :=
    fun isQuiet few =>
      (if_pos awake).trans ((if_pos isQuiet).trans (congrArg pendingTest (if_neg (Nat.not_le.mpr few))))
  have turns : quiet s = true → 3000 ≤ s.supply.dormantRounds + 1 →
      dormantAdvance s = pendingTest (quietMinuteTurn s) :=
    fun isQuiet full => (if_pos awake).trans ((if_pos isQuiet).trans (congrArg pendingTest (if_pos full)))
  obtain ⟨noEntry, leftPending, entry⟩ := quietMinuteTurn_rows s
  refine ⟨fun stirred => ?_, fun isQuiet few still => ?_, fun isQuiet full none notDue => ?_,
    fun isQuiet full due barred => ?_, fun isQuiet free brings => ?_⟩
  · exact (if_pos awake).trans (if_neg (by simp [stirred]))
  · rw [counts isQuiet few]
    exact pendingTest_still (.inr still)
  · rw [turns isQuiet full, noEntry notDue]
    exact pendingTest_still (.inr (.inl none))
  · rw [turns isQuiet full, leftPending due barred]
    exact pendingTest_still (.inr (.inr barred))
  · by_cases full : 3000 ≤ s.supply.dormantRounds + 1
    · rw [turns isQuiet full]
      by_cases due : entryDue s
      · rw [entry due free]
        exact pendingTest_still (.inl rfl)
      · have pending := brings.resolve_right fun h => due h.2
        rw [noEntry due, pending]
        exact pendingTest_made awake rfl free
    · rw [counts isQuiet (Nat.not_le.mp full)]
      exact pendingTest_made awake (brings.resolve_right fun h => full h.1) free

theorem quiet_iff {s : State} (empty : s.track.table = []) :
    quiet s = true ↔
      (∀ j : Fin 16, withinReach s j = true → s.access.peerCalm[j] = .CALM) ∧
        (s.supply.straps.isEnd = false → s.beams.hall.confirmed = .CLEAR ∧ s.beams.street.confirmed = .CLEAR ∧
          (s.line.peerRight.confirmed = .code .QUIET ∨ s.line.peerRight.confirmed = .ABSENT)) ∧
        (s.supply.straps.station.val ≠ 0 →
          s.line.peerLeft.confirmed = .code .QUIET ∨ s.line.peerLeft.confirmed = .ABSENT) := by
  have clear : ∀ b : Beam, b ≠ .BROKEN ↔ b = .CLEAR := fun b => by cases b <;> decide
  have within : ∀ (b : Bool) (p : Prop), b = false ∨ p ↔ (b = true → p) := fun b p => by cases b <;> simp
  have row : quiet s = true ↔
      ((hasRight s = false ∨ s.beams.hall.confirmed = .CLEAR ∧ s.beams.street.confirmed = .CLEAR) ∧
        (hasLeft s = false ∨ s.line.peerLeft.confirmed = .code .QUIET ∨ s.line.peerLeft.confirmed = .ABSENT)) ∧
        (hasRight s = false ∨ s.line.peerRight.confirmed = .code .QUIET ∨ s.line.peerRight.confirmed = .ABSENT) ∧
        ∀ j : Fin 16, withinReach s j = false ∨ s.access.peerCalm[j] = .CALM := by
    simp [quiet, empty, beamBroken, quietCode_iff, clear, and_assoc]
  have right : hasRight s = true ↔ s.supply.straps.isEnd = false := by simp [hasRight]
  have left : hasLeft s = true ↔ s.supply.straps.station.val ≠ 0 := by simp [hasLeft, State.station]
  rw [row]
  simp only [within, right, left]
  constructor
  · rintro ⟨⟨beams, codeLeft⟩, codeRight, calm⟩
    exact ⟨calm, fun has => ⟨(beams has).1, (beams has).2, codeRight has⟩, codeLeft⟩
  · rintro ⟨calm, ofRight, codeLeft⟩
    exact ⟨⟨fun has => ⟨(ofRight has).1, (ofRight has).2.1⟩, codeLeft⟩, fun has => (ofRight has).2.2, calm⟩

/-! ## What the dormant timer's part finds (R190, R191) -/

/-- What no part of a round start but the dormant timer's changes, of that which the dormant timer goes by. -/
def restBasis (m : State) : LineState × PeerRecord × PeerRecord × BeamFilter × BeamFilter × Vector Cadence 16 × Params ×
    Option Response × SupplyUnit :=
  (m.line.state, m.line.peerLeft, m.line.peerRight, m.beams.hall, m.beams.street, m.access.peerCalm, m.host.params,
    m.host.outstanding, m.supply)

theorem roundTask_restBasis (how : RoundHow) (sense : DriveSense) {u : RoundTask} (notRest : u ≠ .dormantTimer) (m : State) :
    restBasis (roundTask how sense u m) = restBasis m := by
  cases u <;> simp [restBasis, roundTask] at notRest ⊢

/-- No window is in flight, none can begin at this round start, and no track is in the table. -/
structure NothingOpen (how : RoundHow) (m : State) : Prop where
  idle : m.field.window = none
  noGrant : how = .startMark → m.access.grant = false
  notLone : m.line.state ≠ .LONE
  empty : m.track.table = []

theorem NothingOpen.windowAtRound_eq {how : RoundHow} {m : State} (h : NothingOpen how m) (sense : DriveSense) :
    windowAtRound how sense m = m := by
  refine if_neg ?_
  simpa [h.notLone] using fun _ => h.noGrant

/-- With nothing open, a part leaves nothing open, and the lanes to the sound timers. -/
theorem NothingOpen.roundTask {how : RoundHow} {m : State} (h : NothingOpen how m) (sense : DriveSense) {u : RoundTask}
    (notRest : u ≠ .dormantTimer) :
    NothingOpen how (Machine.roundTask how sense u m) ∧
      (u ≠ .soundTimers → (Machine.roundTask how sense u m).lanes = m.lanes) := by
  have noExpiry : expireTracks m = m := by simp [expireTracks, h.empty]
  have noEnd : cutWindow m = m := by simp [cutWindow, h.idle]
  by_cases idles : u = .windowEnd ∨ u = .windowStart ∨ u = .trackExpiry
  · have same : Machine.roundTask how sense u m = m := by
      rcases idles with rfl | rfl | rfl
      · exact noEnd
      · exact h.windowAtRound_eq sense
      · exact noExpiry
    rw [same]
    exact ⟨h, fun _ => rfl⟩
  · simp only [not_or] at idles
    obtain ⟨notEnd, notStart, notExpiry⟩ := idles
    obtain ⟨-, field, table, -⟩ := roundTask_afterWindow how sense u notStart notRest notEnd notExpiry m
    have grant : (Machine.roundTask how sense u m).access.grant = m.access.grant := by
      cases u <;> simp [Machine.roundTask] at notRest notStart ⊢
    have lanes : u ≠ .soundTimers → (Machine.roundTask how sense u m).lanes = m.lanes := fun notSound => by
      cases u <;> simp [Machine.roundTask] at notRest notSound notEnd notStart notExpiry ⊢
    exact ⟨⟨field ▸ h.idle, fun marked => grant.trans (h.noGrant marked), roundTask_notLone how sense u h.notLone,
      table.trans h.empty⟩, lanes⟩

/-- What the dormant timer's part of a round start of `s` finds, the parts `later` still to come. -/
structure RestAwaited (how : RoundHow) (s : State) (later : List RoundTask) (m : State) : Prop where
  nothingOpen : NothingOpen how m
  basis : restBasis m = restBasis s
  untouched : RoundTask.soundTimers ∈ later → m.lanes = s.lanes
  left : sameMachine s.lanes.left m.lanes.left
  right : sameMachine s.lanes.right m.lanes.right

theorem RestAwaited.roundTask {how : RoundHow} {s m : State} {later : List RoundTask} {u : RoundTask}
    (h : RestAwaited how s (u :: later) m) (last : ∀ k, s.lanes.left = .SOUNDING k ∨ s.lanes.right = .SOUNDING k → 2 ≤ k)
    (once : u ∉ later) (sense : DriveSense) (notRest : u ≠ .dormantTimer) :
    RestAwaited how s later (Machine.roundTask how sense u m) := by
  obtain ⟨nothingOpen, basis, untouched, left, right⟩ := h
  obtain ⟨stillNothing, lanes⟩ := nothingOpen.roundTask sense notRest
  have basis' := (roundTask_restBasis how sense notRest m).trans basis
  by_cases sound : u = .soundTimers
  · subst sound
    obtain ⟨left', right', ticked, sameLeft, sameRight⟩ := soundTimers_last (untouched List.mem_cons_self) last
    have taken : Machine.roundTask how sense .soundTimers m = _ := ticked
    exact ⟨stillNothing, basis', fun mem => absurd mem once, taken ▸ sameLeft, taken ▸ sameRight⟩
  · have same := lanes sound
    exact ⟨stillNothing, basis', fun mem => same.trans (untouched (List.mem_cons_of_mem u mem)), same ▸ left, same ▸ right⟩

theorem sameMachine_sounding {a b : LaneState} (same : sameMachine a b) : isSounding b = isSounding a := by
  rcases same with rfl | ⟨i, k, rfl, rfl⟩ <;> rfl

/-- The dormant timer goes by what it would go by before the round start. -/
theorem RestAwaited.same {how : RoundHow} {s m : State} {later : List RoundTask} (h : RestAwaited how s later m)
    (empty : s.track.table = []) :
    m.supply = s.supply ∧ quiet m = quiet s ∧ (restBarred m ↔ restBarred s) ∧ (entryDue m ↔ entryDue s) := by
  obtain ⟨nothingOpen, basis, -, left, right⟩ := h
  simp only [restBasis, Prod.mk.injEq] at basis
  obtain ⟨-, peerLeft, peerRight, hall, street, calm, params, outstanding, supply⟩ := basis
  have sounding : anySounding m = anySounding s := by
    simp only [anySounding, sounds, hasLane_congr _ (congrArg SupplyUnit.straps supply), laneState, sameMachine_sounding left,
      sameMachine_sounding right]
  refine ⟨supply, ?_, ?_, ?_⟩
  · simp only [quiet, beamBroken, hasLeft, hasRight, withinReach, State.station, nothingOpen.empty, empty, peerLeft, peerRight,
      hall, street, calm, supply]
    rfl
  · rw [restBarred, restBarred, sounding, outstanding]
  · rw [entryDue, entryDue, minutesAfter, minutesAfter, params, supply]

/-! ## What a DORMANT entry leaves to the end of the round start (R192) -/

/-- The part after a DORMANT entry in the course of a round start. -/
structure AtRest (m : State) : Prop where
  idle : m.field.window = none
  empty : m.track.table = []
  state : m.line.state = .SILENT
  timing : m.line.timing = .FOLLOWING
  cache : m.track.cache = []
  notices : m.notices = { outbox := [], inFlight := .NONE }
  left : m.lanes.left = .ARMED
  right : m.lanes.right = .ARMED

theorem AtRest.shows {m : State} (h : AtRest m) :
    m.line.state = .SILENT ∧ m.line.timing = .FOLLOWING ∧ m.track.cache = [] ∧
      m.notices = { outbox := [], inFlight := .NONE } ∧ m.lanes.left = .ARMED ∧ m.lanes.right = .ARMED :=
  ⟨h.state, h.timing, h.cache, h.notices, h.left, h.right⟩

theorem rested_atRest {s : State} (notClashed : s.line.state ≠ .CLASHED) : AtRest (rested s) :=
  ⟨rfl, rfl, if_neg notClashed, rfl, rfl, rfl, rfl, rfl⟩

theorem AtRest.roundTask {m : State} (h : AtRest m) (how : RoundHow) (sense : DriveSense) {u : RoundTask}
    (notRest : u ≠ .dormantTimer) : AtRest (Machine.roundTask how sense u m) := by
  have notSynced : m.line.state ≠ .SYNCED ∧ m.line.state ≠ .LONE := by simp [h.state]
  have noExpiry : expireTracks m = m := by simp [expireTracks, h.empty]
  have noEnd : cutWindow m = m := by simp [cutWindow, h.idle]
  have noStart : windowAtRound how sense m = m := by simp [windowAtRound, notSynced]
  have noSound : soundTick .right (soundTick .left m) = m := by
    rw [soundTick_armed .left h.left, soundTick_armed .right h.right]
  by_cases idles : u = .windowEnd ∨ u = .windowStart ∨ u = .trackExpiry ∨ u = .soundTimers
  · have same : Machine.roundTask how sense u m = m := by
      rcases idles with rfl | rfl | rfl | rfl
      · exact noEnd
      · exact noStart
      · exact noExpiry
      · exact noSound
    rw [same]
    exact h
  · simp only [not_or] at idles
    obtain ⟨notEnd, notStart, notExpiry, notSound⟩ := idles
    obtain ⟨-, field, table, -⟩ := roundTask_afterWindow how sense u notStart notRest notEnd notExpiry m
    have line : (Machine.roundTask how sense u m).line.state = m.line.state ∧
        (Machine.roundTask how sense u m).line.timing = m.line.timing := by
      cases u <;> simp [Machine.roundTask] at notRest ⊢
    have lanes : (Machine.roundTask how sense u m).lanes = m.lanes := by
      cases u <;> simp [Machine.roundTask] at notRest notSound notEnd notStart notExpiry ⊢
    have cache : (Machine.roundTask how sense u m).track.cache = [] := by
      cases u
      case windowEnd | trackExpiry | windowStart | dormantTimer => contradiction
      case cacheAgeing => simp [Machine.roundTask, ageCache, h.cache]
      case beamsBroken =>
        simp only [Machine.roundTask, beamsAtRound]
        split <;> exact h.cache
      all_goals simpa [Machine.roundTask] using h.cache
    have notices : (Machine.roundTask how sense u m).notices = { outbox := [], inFlight := .NONE } := by
      cases u
      case windowEnd | trackExpiry | windowStart | dormantTimer => contradiction
      case staleNotices => simp [Machine.roundTask, dropStale, h.notices, boundNotices, looseNotices]
      all_goals simpa [Machine.roundTask] using h.notices
    exact ⟨field ▸ h.idle, table.trans h.empty, line.1.trans h.state, line.2.trans h.timing, cache, notices,
      lanes ▸ h.left, lanes ▸ h.right⟩

/-! ## The round start (R87, R190 to R192) -/

/-- The supply block that a round start leaves is the one that the dormant timer's part leaves of the part `m` it finds, and a
DORMANT entry made there stands to the end. -/
theorem roundStart_dormantTimer {how : RoundHow} {timer : Nat} {input : RoundInput} {s : State} (nothingOpen : NothingOpen how s)
    (notClashed : s.line.state ≠ .CLASHED) (last : ∀ k, s.lanes.left = .SOUNDING k ∨ s.lanes.right = .SOUNDING k → 2 ≤ k) :
    ∃ m, RestAwaited how s [] m ∧ (roundStart how timer input s).supply = (dormantAdvance m).supply ∧
      (dormantAdvance m = rested m → AtRest (roundStart how timer input s)) := by
  obtain ⟨l, r, order, notInL, notInR⟩ := roundOrder_split input .dormantTimer
  have nodup := roundOrder_nodup input
  rw [order, List.nodup_append] at nodup
  generalize starting : (s.onLine fun u => { u with timer := timer, round := u.round + 1 }) = s1
  obtain ⟨idle, noGrant, notLone, empty⟩ := nothingOpen
  have begins : RestAwaited how s l s1 := by
    subst starting
    exact ⟨⟨idle, noGrant, notLone, empty⟩, rfl, fun _ => rfl, .inl rfl, .inl rfl⟩
  have found : RestAwaited how s [] (roundTasks how input.sense l s1) :=
    (roundTasks_remaining (fun later m => RoundTask.dormantTimer ∉ later ∧ RestAwaited how s later m) how input.sense l nodup.1
      (fun u _ notRest later once m ⟨notLater, h⟩ =>
        ⟨fun mem => notLater (List.mem_cons_of_mem u mem), h.roundTask last once input.sense notRest⟩)
      (fun _ _ _ _ _ ⟨notLater, _⟩ => absurd List.mem_cons_self notLater) (fun inL => absurd inL notInL) ⟨notInL, begins⟩).2
  generalize reached : roundTasks how input.sense l s1 = m at found
  have notRest : ∀ u ∈ r, u ≠ .dormantTimer := fun u mem same => notInR (same ▸ mem)
  have whole : roundStart how timer input s =
      missSlots (fun n => slotLastBit n < timer)
        (((roundTasks how input.sense r (dormantAdvance m)).onLine fun u => { u with requestSet := none }).onAccess fun a =>
          { a with grant := false }) := by
    simp only [roundStart, starting, order, List.foldl_append, List.foldl_cons, ← reached]
    rfl
  rw [whole, missSlots_eq]
  refine ⟨m, found, ?_, fun rests => ?_⟩
  · exact foldl_keeps_mem (fun m => m.supply) _ r (fun u mem m => roundTask_supply how input.sense (notRest u mem) m) _
  · have atRest : AtRest (roundTasks how input.sense r (dormantAdvance m)) := by
      have state : m.line.state = s.line.state := congrArg Prod.fst found.basis
      refine foldl_holds_mem AtRest _ r (fun u mem m h => h.roundTask how input.sense (notRest u mem)) ?_
      rw [rests]
      exact rested_atRest (state ▸ notClashed)
    exact ⟨atRest.idle, atRest.empty, atRest.state, atRest.timing, atRest.cache, atRest.notices, atRest.left, atRest.right⟩

/-- What a round start makes of the dormant timer while no window and no track is open (R190 to R192). -/
theorem roundStart_rest_rows {how : RoundHow} {timer : Nat} {input : RoundInput} {s : State} (nothingOpen : NothingOpen how s)
    (notClashed : s.line.state ≠ .CLASHED) (last : ∀ k, s.lanes.left = .SOUNDING k ∨ s.lanes.right = .SOUNDING k → 2 ≤ k)
    (awake : s.supply.dormancy = .AWAKE) :
    (quiet s = false → (roundStart how timer input s).supply = (dormantTimerZero s).supply) ∧
      (quiet s = true → s.supply.dormantRounds + 1 < 3000 → s.supply.pendingEntry = false ∨ restBarred s →
        (roundStart how timer input s).supply = { s.supply with dormantRounds := s.supply.dormantRounds + 1 }) ∧
      (quiet s = true → 3000 ≤ s.supply.dormantRounds + 1 → s.supply.pendingEntry = false → ¬ entryDue s →
        (roundStart how timer input s).supply = minuteTaken s.supply.pendingEntry s) ∧
      (quiet s = true → 3000 ≤ s.supply.dormantRounds + 1 → entryDue s → restBarred s →
        (roundStart how timer input s).supply = minuteTaken true s) ∧
      (quiet s = true → ¬ restBarred s → s.supply.pendingEntry = true ∨ (3000 ≤ s.supply.dormantRounds + 1 ∧ entryDue s) →
        (roundStart how timer input s).supply = (rested s).supply ∧ AtRest (roundStart how timer input s)) := by
  obtain ⟨m, found, supplied, rests⟩ := roundStart_dormantTimer (timer := timer) (input := input) nothingOpen notClashed last
  obtain ⟨supply, sameQuiet, sameBarred, sameDue⟩ := found.same nothingOpen.empty
  have rows := dormantAdvance_rows (s := m) (supply ▸ awake)
  rw [sameQuiet, sameBarred, sameDue, supply] at rows
  obtain ⟨zero, counts, minute, pending, entry⟩ := rows
  have minutes : ∀ b, minuteTaken b m = minuteTaken b s := fun b => by simp only [minuteTaken, minutesAfter, supply]
  rw [supplied]
  refine ⟨fun stirred => ?_, fun isQuiet few still => ?_, fun isQuiet full none notDue => ?_, fun isQuiet full due barred => ?_,
    fun isQuiet free brings => ?_⟩
  · rw [zero stirred, dormantTimerZero, dormantTimerZero, State.onSupply, State.onSupply, supply]
  · rw [counts isQuiet few still]
  · rw [minute isQuiet full none notDue, minutes]
  · rw [pending isQuiet full due barred, minutes]
  · have made := entry isQuiet free brings
    refine ⟨?_, rests made⟩
    rw [made, rested, rested, supply]

/-- Settles O21: the dormant timer's part of a round start goes by nothing that the parts before it change, and what it makes
stands through the parts after it, so each clause is a row about `quietMinuteTurn` or `dormantAdvance`. -/
theorem minuteAndSoundTimers : Obligations.MinuteAndSoundTimers := by
  unfold Obligations.MinuteAndSoundTimers
  refine ⟨fun l s running => ⟨fun k has sounding few => ?_, fun notDue => ?_⟩, ?_, ?_⟩
  · have due : soundLimitDue l s = true := (soundLimitDue_iff l s).mpr ⟨has, k, sounding, few⟩
    exact exec_taken running ((if_pos due).trans (hushLane_eq l .LIMIT s))
  · refine exec_taken running (if_neg fun due => ?_)
    obtain ⟨has, k, sounding, few⟩ := (soundLimitDue_iff l s).mp due
    rcases notDue with lacks | more
    · exact absurd (has.symm.trans lacks) (by decide)
    · exact Nat.not_lt.mpr few (more k sounding)
  · intro s running awake isQuiet full none minutes due barred
    have minuteFull : quietMinuteDue s = true := by
      have enough : Config.minuteRounds ≤ s.supply.dormantRounds + 1 := Nat.succ_le_succ full
      simp [quietMinuteDue, awake, isQuiet, enough]
    have taken : exec .quietMinute s = .next (pendingTest (quietMinuteTurn s)) := exec_taken running (if_pos minuteFull)
    obtain ⟨noEntry, leftPending, entry⟩ := quietMinuteTurn_rows s
    rw [taken]
    refine ⟨fun notDue => ?_, fun isDue bars => ?_, fun isDue free => ?_⟩
    · rw [noEntry notDue]
      exact congrArg _ (pendingTest_still (.inr (.inl none)))
    · rw [leftPending isDue bars]
      exact congrArg _ (pendingTest_still (.inr (.inr bars)))
    · rw [entry isDue free]
      exact congrArg _ (pendingTest_still (.inl rfl))
  · intro c input s running awake empty idle last starts u minutes due barred zero
    refine ⟨quiet_iff empty, ?_⟩
    rcases starts with ⟨rfl, listen, before⟩ | ⟨began, length, rfl, late, long, synced, grant⟩
    · have notDue : ¬ Config.listenLimit ≤ listenTimeAt s.line := Nat.not_le.mpr before
      rw [exec_running _ running, effect, expireTimer, if_pos listen, if_neg notDue]
      obtain ⟨toZero, counts, minute, pending, entry⟩ := roundStart_rest_rows (how := .timer) (timer := 0) (input := input)
        (s := s.onLine fun u => { u with listenTime := listenTimeAt u }) ⟨idle, nofun, by simp [listen], empty⟩
        (by simp [listen]) last awake
      exact ⟨_, rfl, toZero, counts, minute, pending, fun isQuiet free brings =>
        (entry isQuiet free brings).imp_right AtRest.shows⟩
    · obtain ⟨toZero, counts, minute, pending, entry⟩ := roundStart_rest_rows (how := .startMark) (timer := length)
        (input := input) (s := markReleased s) ⟨idle, fun _ => grant, by simp [markReleased, synced], empty⟩
        (by simp [markReleased, synced]) last awake
      exact ⟨_, markEnd_synced input running synced long late, toZero, counts, minute, pending, fun isQuiet free brings =>
        (entry isQuiet free brings).imp_right AtRest.shows⟩

end Sys2Proof.Machine
end

section
/-! PROOFS. The values of a latched entry and of its tones (O45). -/

namespace Sys2Proof.Machine

/-! ## Phase words (R160) -/

/-- The figure that a phase word holds: F × 65536 / 16000 to the nearest whole number. -/
def phaseFigure (f : Nat) : Nat := (f * 1024 + 125) / 250

theorem phaseWord_silent : phaseWord 0 = none := rfl

theorem phaseWord_tone {f : Nat} (tone : f ≠ 0) : phaseWord f = some (BitVec.ofNat 16 (phaseFigure f)) := if_neg tone

/-- The figure of a frequency up to 4000 Hz fits its 16 bits. -/
theorem phaseFigure_toNat {f : Nat} (low : f ≤ 4000) : (BitVec.ofNat 16 (phaseFigure f)).toNat = phaseFigure f := by
  have fits : phaseFigure f < 2 ^ 16 := by
    unfold phaseFigure
    omega
  rw [BitVec.toNat_ofNat, Nat.mod_eq_of_lt fits]

theorem phaseFigure_rounds (f : Nat) :
    16000 * (2 * phaseFigure f) ≤ 2 * 65536 * f + 16000 ∧ 2 * 65536 * f < 16000 * (2 * phaseFigure f + 1) := by
  unfold phaseFigure
  omega

theorem phaseWord_rounds {f : Nat} (low : f ≤ 4000) :
    (f = 0 → phaseWord f = none) ∧
      (f ≠ 0 →
        ∃ m : BitVec 16, phaseWord f = some m ∧ 16000 * (2 * m.toNat) ≤ 2 * 65536 * f + 16000 ∧
          2 * 65536 * f < 16000 * (2 * m.toNat + 1)) := by
  refine ⟨fun silent => silent ▸ phaseWord_silent, fun tone => ⟨_, phaseWord_tone tone, ?_⟩⟩
  rw [phaseFigure_toNat low]
  exact phaseFigure_rounds f

/-! ## Amplitudes (R161) -/

/-- Steps of 2 dB that an entry's level and the volume lie below 0 dB. -/
theorem amplitudeAt_steps {below : Nat} (even : below % 2 = 0) (volume : Nat) :
    amplitudeAt below volume = amplitudeTable.getD (below / 2 + volume) 0 := by
  have steps : (below + 2 * volume) / 2 = below / 2 + volume := by omega
  rw [amplitudeAt, steps]

/-- An entry of the table is 1024 × 10^(-k/10) to the nearest whole number, told by tenth powers. -/
theorem amplitudeTable_rounds {k : Nat} (loud : k ≤ 23) :
    (2 * amplitudeTable.getD k 0 - 1) ^ 10 * 10 ^ k ≤ 2048 ^ 10 ∧
      2048 ^ 10 < (2 * amplitudeTable.getD k 0 + 1) ^ 10 * 10 ^ k := by
  have each : ∀ j : Fin 24, (2 * amplitudeTable.getD j 0 - 1) ^ 10 * 10 ^ j.val ≤ 2048 ^ 10 ∧
      2048 ^ 10 < (2 * amplitudeTable.getD j 0 + 1) ^ 10 * 10 ^ j.val := by decide
  exact each ⟨k, Nat.lt_succ_of_le loud⟩

theorem amplitudeTable_silent {k : Nat} (quiet : 24 ≤ k) : amplitudeTable.getD k 0 = 0 :=
  List.getD_eq_default _ _ quiet

/-! ## Terms of a tone (R160) -/

theorem quarterSine_le (j : Nat) : quarterSine.getD j 0 ≤ 2 ^ 20 := by
  have each : ∀ x ∈ quarterSine, x ≤ 2 ^ 20 := by decide
  by_cases inside : j < quarterSine.length
  · rw [List.getD_eq_getElem _ _ inside]
    exact each _ (List.getElem_mem inside)
  · rw [List.getD_eq_default _ _ (Nat.le_of_not_lt inside)]
    exact Nat.zero_le _

theorem quarterSine_rises {j : Nat} (rising : j < 64) : quarterSine.getD j 0 ≤ quarterSine.getD (j + 1) 0 := by
  have each : ∀ k : Fin 64, quarterSine.getD k 0 ≤ quarterSine.getD (k.val + 1) 0 := by decide
  exact each ⟨j, rising⟩

/-- The two halves of a half-turn read the same places of the quarter sine. -/
theorem quarterIndex_mirror {i : Nat} (half : i ≤ 128) : quarterIndex (128 - i) = quarterIndex i := by
  unfold quarterIndex
  split <;> split <;> omega

theorem sineMagnitude_le (a i : Nat) : sineMagnitude a i ≤ a := by
  have product := Nat.mul_le_mul_left a (quarterSine_le (quarterIndex i))
  unfold sineMagnitude
  omega

theorem sineMagnitude_zero (a : Nat) : sineMagnitude a 0 = 0 := by
  simp [sineMagnitude, quarterIndex, quarterSine]

theorem sineMagnitude_peak (a : Nat) : sineMagnitude a 64 = a := by
  have peak : quarterSine.getD (quarterIndex 64) 0 = 2 ^ 20 := by decide
  rw [sineMagnitude, peak]
  omega

theorem sineMagnitude_mirror (a : Nat) {i : Nat} (half : i ≤ 128) : sineMagnitude a (128 - i) = sineMagnitude a i := by
  rw [sineMagnitude, quarterIndex_mirror half, sineMagnitude]

theorem sineMagnitude_rises (a : Nat) {i : Nat} (rising : i < 64) : sineMagnitude a i ≤ sineMagnitude a (i + 1) := by
  have here : quarterIndex i = i := if_pos (Nat.le_of_lt rising)
  have next : quarterIndex (i + 1) = i + 1 := if_pos rising
  rw [sineMagnitude, sineMagnitude, here, next]
  have product := Nat.mul_le_mul_left a (quarterSine_rises rising)
  exact Nat.div_le_div_right (Nat.add_le_add_right product _)

theorem waveTerm_firstHalf (a : Nat) {i : Nat} (first : i < 128) : waveTerm a i = sineMagnitude a i := if_pos first

theorem waveTerm_secondHalf (a i : Nat) : waveTerm a (i + 128) = -(sineMagnitude a i : Int) := by
  have second : ¬ i + 128 < 128 := by omega
  rw [waveTerm, if_neg second, Nat.add_sub_cancel]

theorem waveTerm_zero (a : Nat) : waveTerm a 0 = 0 := by
  rw [waveTerm_firstHalf a (by decide), sineMagnitude_zero]
  rfl

/-- The half-turn itself, index 128, is read from the second half, where the term is 0 as well. -/
theorem waveTerm_halfTurn (a : Nat) : waveTerm a 128 = 0 := by
  rw [waveTerm_secondHalf a 0, sineMagnitude_zero]
  rfl

theorem waveTerm_bounds (a i : Nat) : -(a : Int) ≤ waveTerm a i ∧ waveTerm a i ≤ a := by
  rcases Nat.lt_or_ge i 128 with first | second
  · have bound := sineMagnitude_le a i
    rw [waveTerm_firstHalf a first]
    omega
  · obtain ⟨j, rfl⟩ := Nat.exists_eq_add_of_le' second
    have bound := sineMagnitude_le a j
    rw [waveTerm_secondHalf]
    omega

theorem waveTerm_mirror (a : Nat) {i : Nat} (half : i ≤ 128) : waveTerm a (128 - i) = waveTerm a i := by
  by_cases start : i = 0
  · rw [start, waveTerm_zero]
    exact waveTerm_halfTurn a
  · by_cases turn : i = 128
    · rw [turn, waveTerm_halfTurn]
      exact waveTerm_zero a
    · rw [waveTerm_firstHalf a (show 128 - i < 128 by omega), waveTerm_firstHalf a (show i < 128 by omega),
        sineMagnitude_mirror a half]

/-! ## The statement -/

/-- Settles O45: the phase words by rounding, the amplitudes by their table, and the terms by the first half-turn, whose second
quarter mirrors the first and whose negative is the second half-turn. -/
theorem toneValues : Obligations.ToneValues := by
  unfold Obligations.ToneValues
  refine ⟨fun volume e lowA lowB => ⟨phaseWord_rounds lowA, phaseWord_rounds lowB⟩, fun volume below e level even => ?_,
    fun volume e rests => ?_, fun a i _ => ?_⟩
  · have amplitude : (latchOf volume e).amplitude = some (amplitudeTable.getD (below / 2 + volume) 0) := by
      rw [latchOf, level, ← amplitudeAt_steps even]
      rfl
    exact ⟨_, amplitude, amplitudeTable_rounds, amplitudeTable_silent⟩
  · rw [latchOf, rests]
    rfl
  · obtain ⟨low, high⟩ := waveTerm_bounds a i
    have peak : waveTerm a 64 = a := by rw [waveTerm_firstHalf a (by decide), sineMagnitude_peak]
    refine ⟨low, high, waveTerm_zero a, peak, fun first => ?_, waveTerm_mirror a, fun rising => ?_⟩
    · rw [waveTerm_secondHalf, waveTerm_firstHalf a first]
    · rw [waveTerm_firstHalf a (show i < 128 by omega), waveTerm_firstHalf a (show i + 1 < 128 by omega)]
      exact Int.ofNat_le.mpr (sineMagnitude_rises a rising)

end Sys2Proof.Machine
end

section
/-! PROOFS. The entry starts of the sounder (O44) and the samples it gives (O46). -/

namespace Sys2Proof.Machine

/-! ## When an entry start is due (R158) -/

theorem entryDone_iff (u : Sounder) :
    entryDone u = true ↔ u.playing = true ∧ u.latched ≠ none ∧ u.samplesLeft = 0 := by
  simp [entryDone, Option.isSome_iff_ne_none, and_assoc]

theorem recheckDue_iff (u : Sounder) :
    recheckDue u = true ↔ u.playing = true ∧ u.latched = none ∧ u.samplesLeft = 0 := by
  simp [recheckDue, and_assoc]

/-- Before the last sample of a latched entry no next entry starts. -/
theorem entryEnd_still {s : State} (left : s.sounder.samplesLeft ≠ 0) : entryEnd s = s :=
  if_neg fun done =>
    have ⟨_, _, noneLeft⟩ := (entryDone_iff s.sounder).mp done
    left noneLeft

theorem entryEnd_due {s : State} (playing : s.sounder.playing = true) (latched : s.sounder.latched ≠ none)
    (last : s.sounder.samplesLeft = 0) :
    entryEnd s = s.onSounder fun u => entryStart s.params.volume (u.position + 1) u :=
  if_pos ((entryDone_iff s.sounder).mpr ⟨playing, latched, last⟩)

/-- Before its 160 samples have been given, entry 0 is not read again. -/
theorem recheck_still {s : State} (left : s.sounder.samplesLeft ≠ 0) : recheck s = s :=
  if_neg fun due =>
    have ⟨_, _, noneLeft⟩ := (recheckDue_iff s.sounder).mp due
    left noneLeft

theorem recheck_due {s : State} (playing : s.sounder.playing = true) (unlatched : s.sounder.latched = none)
    (last : s.sounder.samplesLeft = 0) : recheck s = s.onSounder fun u => entryStart s.params.volume 0 u :=
  if_pos ((recheckDue_iff s.sounder).mpr ⟨playing, unlatched, last⟩)

/-! ## What an entry start does (R158) -/

theorem entryStart_latches (volume : Nat) {index : Fin 16} {u : Sounder} (plays : u.table[index].duration ≠ 0) :
    entryStart volume index u = latchEntry volume index u :=
  if_pos plays

theorem entryStart_returns (volume : Nat) {index : Fin 16} {u : Sounder} (marker : ¬ u.table[index].duration ≠ 0)
    (plays : u.table[(0 : Fin 16)].duration ≠ 0) : entryStart volume index u = latchEntry volume 0 u :=
  (if_neg marker).trans (if_pos plays)

theorem entryStart_waits (volume : Nat) {index : Fin 16} {u : Sounder} (marker : ¬ u.table[index].duration ≠ 0)
    (markerFirst : ¬ u.table[(0 : Fin 16)].duration ≠ 0) :
    entryStart volume index u = { u with position := 0, samplesLeft := 160, latched := none, accA := 0, accB := 0 } :=
  (if_neg marker).trans (if_neg markerFirst)

/-- A command whose effect is an entry start leaves the sounder that the entry start makes. -/
theorem exec_entryStart {c : Instr} {index : Fin 16} {s : State} {u : Sounder} (running : heldInReset s = false)
    (starting : effect c s = s.onSounder (entryStart s.params.volume index))
    (start : entryStart s.params.volume index s.sounder = u) : exec c s = .next { s with sounder := u } :=
  exec_taken running (starting.trans (congrArg (fun v => { s with sounder := v }) start))

/-- Settles O44: each of the two commands starts the entry it names when that is due, and an entry start goes by the entry there
and by entry 0 alone. -/
theorem sounderEntryStarts : Obligations.SounderEntryStarts := by
  unfold Obligations.SounderEntryStarts
  intro s running playing plays begun waits starts
  have started : ∀ {c i}, effect c s = s.onSounder (entryStart s.params.volume i) → starts c i := fun starting =>
    ⟨fun here => exec_entryStart running starting (entryStart_latches _ here),
      fun marker first => exec_entryStart running starting (entryStart_returns _ marker first),
      fun marker markerFirst => exec_entryStart running starting (entryStart_waits _ marker markerFirst)⟩
  refine ⟨fun latched last => started (entryEnd_due playing latched last),
    fun unlatched last => started (recheck_due playing unlatched last), fun left => ⟨?_, ?_⟩⟩
  · exact exec_taken running (entryEnd_still left)
  · exact exec_taken running (recheck_still left)

/-! ## What a sample is (R160, R162) -/

theorem clampInt_eq_max_min {lo hi : Int} (ordered : lo ≤ hi) (x : Int) : clampInt lo hi x = max lo (min hi x) := by
  unfold clampInt
  omega

theorem toneTerm_eq (a : Nat) (n : Option (BitVec 16)) (acc : BitVec 16) :
    toneTerm a n acc = if n = none then 0 else waveTerm a (acc.toNat / 256) := by
  cases n with
  | none => rfl
  | some x => rw [if_neg (Option.some_ne_none x), toneTerm, sineIndex]

theorem advance_eq (n : Option (BitVec 16)) (acc : BitVec 16) : advance n acc = acc + n.getD 0 := by
  cases n with
  | none => exact (BitVec.add_zero acc).symm
  | some x => rfl

theorem sampleOf_rest {u : Sounder} {e : Latched} (latched : u.latched = some e) (rests : e.amplitude = none) :
    sampleOf u = 0 := by
  simp only [sampleOf, latched, rests]

theorem sampleOf_tones {u : Sounder} {e : Latched} {a : Nat} (latched : u.latched = some e) (loud : e.amplitude = some a) :
    sampleOf u = max (-2048) (min 2047 (toneTerm a e.nA u.accA + toneTerm a e.nB u.accB)) := by
  simp only [sampleOf, latched, loud]
  exact clampInt_eq_max_min (by decide) _

theorem afterSample_unlatched {u : Sounder} (unlatched : u.latched = none) :
    afterSample u = { u with output := 0, samplesLeft := u.samplesLeft - 1 } := by
  simp only [afterSample, unlatched]

theorem afterSample_latched {u : Sounder} {e : Latched} (latched : u.latched = some e) :
    afterSample u =
      { u with
        output := sampleOf u
        samplesLeft := u.samplesLeft - 1
        accA := u.accA + e.nA.getD 0
        accB := u.accB + e.nB.getD 0 } := by
  simp only [afterSample, latched, advance_eq]

theorem giveSample_idle {s : State} (idle : s.sounder.playing = false) :
    giveSample s = s.onSounder fun u => { u with output := 0 } :=
  if_neg (Bool.eq_false_iff.mp idle)

/-- With samples left no entry start comes before the sample. -/
theorem giveSample_within {s : State} (playing : s.sounder.playing = true) (left : s.sounder.samplesLeft ≠ 0) :
    giveSample s = s.onSounder afterSample := by
  rw [giveSample, if_pos playing, entryEnd_still left, recheck_still left]

/-- Settles O46: with samples left a sample is given as the sounder stands, by what is latched. -/
theorem sounderSampleGiven : Obligations.SounderSampleGiven := by
  unfold Obligations.SounderSampleGiven
  intro s running term sounded
  refine ⟨fun idle => exec_taken running (giveSample_idle idle), fun playing left unlatched => ?_,
    fun e playing left latched => ?_⟩
  · refine exec_taken running ((giveSample_within playing left).trans ?_)
    rw [State.onSounder, afterSample_unlatched unlatched]
  · have given : sampleOf s.sounder = sounded e := by
      cases amplitude : e.amplitude with
      | none => simp only [sounded, amplitude, sampleOf_rest latched amplitude]
      | some a => simp only [sounded, term, amplitude, sampleOf_tones latched amplitude, toneTerm_eq]
    refine exec_taken running ((giveSample_within playing left).trans ?_)
    rw [State.onSounder, afterSample_latched latched, given]

end Sys2Proof.Machine
end

section
/-! PROOFS. The footfall machine and its counts at a sampling event (O47). -/

namespace Sys2Proof.Machine

/-! ## The table of R167 -/

/-- The states of a walk that began at the hall beam, or has yet to begin: hall only goes to H1 (R167). -/
theorem footfallMove_hallOnly {f : Footfall} (begun : f = .CLEAR ∨ f = .H1 ∨ f = .H2 ∨ f = .H3) :
    footfallMove .BROKEN .CLEAR f = .H1 := by
  rcases begun with rfl | rfl | rfl | rfl <;> rfl

theorem footfallMove_streetOnly {f : Footfall} (begun : f = .CLEAR ∨ f = .S1 ∨ f = .S2 ∨ f = .S3) :
    footfallMove .CLEAR .BROKEN f = .S1 := by
  rcases begun with rfl | rfl | rfl | rfl <;> rfl

/-- A walk from the hall beam passes to the street beam, or has both broken (R167). -/
theorem footfallMove_hallWalk {f : Footfall} (walk : f = .H1 ∨ f = .H2 ∨ f = .H3) :
    footfallMove .CLEAR .BROKEN f = .H3 ∧ footfallMove .BROKEN .BROKEN f = .H2 := by
  rcases walk with rfl | rfl | rfl <;> exact ⟨rfl, rfl⟩

/-- A walk from the street beam passes to the hall beam, or has both broken (R167). -/
theorem footfallMove_streetWalk {f : Footfall} (walk : f = .S1 ∨ f = .S2 ∨ f = .S3) :
    footfallMove .BROKEN .CLEAR f = .S3 ∧ footfallMove .BROKEN .BROKEN f = .S2 := by
  rcases walk with rfl | rfl | rfl <;> exact ⟨rfl, rfl⟩

/-- A clear lane ends every walk, and nothing else does (R167). -/
theorem footfallMove_eq_clear (hall street : Beam) (f : Footfall) :
    footfallMove hall street f = .CLEAR ↔ (hall, street) = (.CLEAR, .CLEAR) := by
  cases hall <;> cases street <;> cases f <;> decide

/-- X waits for a clear lane (R167). -/
theorem footfallMove_unknown {hall street : Beam} (broken : (hall, street) ≠ (.CLEAR, .CLEAR)) :
    footfallMove hall street .X = .X := by
  cases hall <;> cases street
  case CLEAR.CLEAR => exact absurd rfl broken
  all_goals rfl

/-! ## The counts of R169 -/

theorem countMove_within {before after : Footfall} (broken : after ≠ .CLEAR) (c : LaneCounts) : countMove before after c = c :=
  if_pos broken

/-- The end of a walk counts an exit from H3 and an entry from S3 (R167, R169). -/
theorem countMove_clear (before : Footfall) (c : LaneCounts) :
    countMove before .CLEAR c =
      { c with
        beamExits := if before = .H3 then c.beamExits + 1 else c.beamExits
        beamEntries := if before = .S3 then c.beamEntries + 1 else c.beamEntries } := by
  cases before <;> rfl

/-! ## The beam unit after a sampling event -/

/-- The pair of confirmed states (R167). -/
def confirmedPair (b : BeamUnit) : Beam × Beam := (b.hall.confirmed, b.street.confirmed)

theorem sampledBeams_pair (hall street : Beam) (b : BeamUnit) :
    confirmedPair (sampledBeams hall street b) =
      ((filterBeam hall b.hall).confirmed, (filterBeam street b.street).confirmed) := by
  simp only [sampledBeams]
  split <;> rfl

/-- A sampling event that changes no confirmed state leaves the footfall machine and the counts (R167). -/
theorem sampledBeams_still {hall street : Beam} {b u : BeamUnit} (sampled : sampledBeams hall street b = u)
    (same : confirmedPair u = confirmedPair b) : u.footfall = b.footfall ∧ u.counts = b.counts := by
  subst sampled
  rw [sampledBeams_pair] at same
  obtain ⟨sameHall, sameStreet⟩ := Prod.mk.inj same
  rw [sampledBeams, if_neg (not_or.mpr ⟨not_not.mpr sameHall, not_not.mpr sameStreet⟩)]
  exact ⟨rfl, rfl⟩

/-- At a change the footfall machine moves once, from the pair after the event, and its move is counted (R167 to R169). -/
theorem sampledBeams_moved {hall street : Beam} {b u : BeamUnit} (sampled : sampledBeams hall street b = u)
    (changed : confirmedPair u ≠ confirmedPair b) :
    u.footfall = footfallMove (confirmedPair u).1 (confirmedPair u).2 b.footfall ∧
      u.counts = countMove b.footfall u.footfall b.counts := by
  subst sampled
  rw [sampledBeams_pair] at changed ⊢
  rw [confirmedPair, ne_eq, Prod.mk.injEq, not_and_or] at changed
  rw [sampledBeams, if_pos changed]
  exact ⟨rfl, rfl⟩

theorem beamBreak_beams (s : State) : (beamBreak s).beams = s.beams := by
  simp only [beamBreak]
  split <;> simp

/-- The hand-over of a beam break leaves the beam unit as the sampling event makes it. -/
theorem sampleBeams_beams (hall street : Beam) {s : State} (right : hasRight s = true) :
    (sampleBeams hall street s).beams = sampledBeams hall street s.beams := by
  simp only [sampleBeams_eq, if_pos right]
  split
  · exact beamBreak_beams _
  · rfl

/-! ## The statement -/

/-- Settles O47: without a change `sampledBeams_still`; at a change `sampledBeams_moved`, by the rows of the table. -/
theorem footfallFollowsTable : Obligations.FootfallFollowsTable := by
  unfold Obligations.FootfallFollowsTable
  intro c hall street s running notEnd named
  have sampling : effect c s = sampleBeams hall street s := by
    rcases named with rfl | rfl <;> rfl
  have right : hasRight s = true := congrArg not notEnd
  have sampled := (sampleBeams_beams hall street right).symm
  refine ⟨_, exec_taken running sampling, ?_⟩
  intro now before f g
  refine ⟨sampledBeams_still sampled, fun changed clear => ?_, fun changed broken => ?_⟩
  all_goals
    obtain ⟨moves, counts⟩ := sampledBeams_moved sampled changed
    replace moves : g = footfallMove now.1 now.2 f := moves
    replace counts : _ = countMove f g s.beams.counts := counts
  · have cleared : g = .CLEAR := moves.trans ((footfallMove_eq_clear _ _ f).mpr clear)
    refine ⟨cleared, counts.trans ?_⟩
    rw [cleared, countMove_clear]
  · have within : g ≠ .CLEAR := fun cleared => broken ((footfallMove_eq_clear _ _ f).mp (moves.symm.trans cleared))
    refine ⟨counts.trans (countMove_within within _), fun unknown => ?_, fun hallOnly => ?_, fun streetOnly => ?_, fun both => ?_⟩
    · rw [moves, unknown, footfallMove_unknown broken]
    · rw [moves, hallOnly]
      exact ⟨footfallMove_hallOnly, fun walk => (footfallMove_streetWalk walk).1⟩
    · rw [moves, streetOnly]
      exact ⟨footfallMove_streetOnly, fun walk => (footfallMove_hallWalk walk).1⟩
    · rw [moves, both]
      exact ⟨fun start => start ▸ rfl, fun walk => (footfallMove_hallWalk walk).2, fun walk => (footfallMove_streetWalk walk).2⟩

end Sys2Proof.Machine
end

section
/-! PROOFS. The commands that take counts and records or set the stream, and the bytes of a record (O58). -/

namespace Sys2Proof.Machine

/-! ## The bytes of a record (R202) -/

/-- A number in bytes, each the digit at its place to the base 256 (chapter 13). -/
theorem beBytes_eq_digits (n x : Nat) :
    beBytes n x = (List.range n).map fun i => BitVec.ofNat 8 (x / 256 ^ (n - 1 - i)) := by
  have place : ∀ k, 2 ^ (8 * k) = 256 ^ k := fun k => Nat.pow_mul 2 8 k
  simp only [beBytes, place]

theorem passageFlags_eq (held peerAlarm : Bool) :
    passageFlags held peerAlarm = (if held then 2 else 0) + (if peerAlarm then 1 else 0) := by
  cases held <;> cases peerAlarm <;> rfl

/-! ## Taking counts (R164, R170) -/

theorem actTakeCounts_right {s : State} (right : hasRight s = true) :
    actTakeCounts s =
      { state := s.onBeams fun b => { b with counts := State.reset.beams.counts }
        answer := .DONE (countBytes s.beams.counts) } :=
  if_pos right

theorem actTakeCounts_noRight {s : State} (noRight : hasRight s = false) : actTakeCounts s = refuse .NO_LANE s :=
  if_neg (Bool.eq_false_iff.mp noRight)

/-! ## Taking records (R183) -/

/-- The number of records that REPORTS passes over: the one in transmission (R183, R184). -/
def passedReports (h : HostPort) : Nat := if h.transmitter = .SENDING_REPORT then 1 else 0

theorem inTransmission_eq (h : HostPort) : inTransmission h = h.ring.take (passedReports h) := by
  unfold inTransmission passedReports
  split <;> rfl

theorem waitingReports_eq (h : HostPort) : waitingReports h = h.ring.drop (passedReports h) := by
  unfold waitingReports passedReports
  split
  · exact List.drop_one.symm
  · rfl

/-- REPORTS takes at most four records from behind those passed over (R183). -/
theorem actReports_eq (n : Nat) (s : State) :
    actReports n s =
      let passed := passedReports s.host
      let left := s.host.ring.take passed ++ s.host.ring.drop (passed + min n 4)
      { state := s.onHost fun h => { h with ring := left }
        answer := .DONE (BitVec.ofNat 8 left.length :: (((s.host.ring.drop passed).take (min n 4)).map reportBytes).flatten) } := by
  simp only [actReports, inTransmission_eq, waitingReports_eq, List.drop_drop, List.flatMap_def]

/-! ## The stream (R184) -/

theorem actStream_sets {arg : Byte} (flag : arg = 0 ∨ arg = 1) (s : State) :
    actStream arg s = { state := s.onHost fun h => { h with streaming := arg = 1 }, answer := .DONE [arg] } := by
  rcases flag with rfl | rfl <;> rfl

/-! ## The statement -/

/-- Settles O58: the bytes of a record by its kind, and each command as it acts once its response is claimed. -/
theorem takeCommandsAnswer : Obligations.TakeCommandsAnswer := by
  unfold Obligations.TakeCommandsAnswer
  refine ⟨fun stamp => ?_, fun n s taken => ?_⟩
  · intro bytes holds
    have spelled : bytes = beBytes := funext fun n => funext fun x => (beBytes_eq_digits n x).symm
    simp only [holds, spelled]
    refine ⟨fun item loan lane direction verdict held peerAlarm dwell => ?_, fun station item lane verdict => ?_,
      fun lane sounding cause => ?_, fun source event => ?_⟩
    · cases lane
      all_goals
        simp only [reportBytes, passageFlags_eq, List.append_assoc, List.cons_append, List.nil_append, List.cons.injEq,
          List.append_cancel_left_eq, and_true, true_and]
        constructor
        · cases direction <;> rfl
        · rcases verdict with _ | (_ | _ | _) <;> rfl
    · rw [BitVec.ofNat_toNat, BitVec.ofNat_toNat]
      simp [reportBytes]
    · cases cause <;> rfl
    · cases event <;> rcases source with (_ | _) | _ <;> rfl
  · intro reply three counts passed number left
    refine ⟨fun notEnd => ?_, fun isEnd => ?_, ?_, fun flag => ?_⟩
    · have right : hasRight s = true := congrArg not notEnd
      have acts := commandFrame_acts (code := 5) (length := 0) (payload := []) taken rfl (by decide) (actTakeCounts_right right)
      refine exec_taken taken.1 (acts.trans ?_)
      simp only [countBytes_eq, beBytes_three]
      rfl
    · have noRight : hasRight s = false := congrArg not isEnd
      exact exec_taken taken.1
        (commandFrame_acts (code := 5) (length := 0) (payload := []) taken rfl (by decide) (actTakeCounts_noRight noRight))
    · have acts := commandFrame_acts (code := 6) (length := 1) (payload := [n]) taken rfl (by decide) (actReports_eq n.toNat _)
      exact exec_taken taken.1 acts
    · have acts := commandFrame_acts (code := 7) (length := 1) (payload := [n]) taken rfl (by decide) (actStream_sets flag _)
      exact exec_taken taken.1 acts

end Sys2Proof.Machine
end

section
/-! PROOFS. How the receiver takes a frame byte by byte, and what a complete frame is answered by: the command of its
code, a refusal, nothing but a count, or the command after a wake (O52 to O55). -/

namespace Sys2Proof.Machine

/-! ## Complete frames (R175, R176, R200) -/

/-- The payload length that the command of a code asks for (R176, R200). -/
def ownLength (code : Byte) : Nat := ([0, 0, 0, 1, 0, 0, 1, 1, 3, 1, 9, 8, 1, 1, 7, 0, 1] : List Nat).getD code.toNat 0

/-- A code of the table names a command of its own length. -/
theorem completeFrame_command {f : Frame} (first : 1 ≤ f.code.toNat) (last : f.code.toNat ≤ 16) :
    ∃ act, ∀ s, completeFrame f s = commandFrame f.code (ownLength f.code) f.payload act s := by
  unfold completeFrame ownLength
  interval_cases f.code.toNat
  all_goals exact ⟨_, fun _ => rfl⟩

/-- A code outside the table names no command. -/
theorem completeFrame_unknown {f : Frame} (outside : f.code = 0 ∨ 16 < f.code.toNat) (s : State) :
    completeFrame f s = unknownCode f.code f.payload s := by
  unfold completeFrame
  simp only
  split
  case h_17 => rfl
  all_goals
    rename_i code
    rcases outside with zero | beyond
    · simp [zero] at code
    · omega

/-- Whatever the code, a complete frame is handled as a frame is. -/
theorem completeFrame_takes (f : Frame) : ∃ take, ∀ s, completeFrame f s = takeFrame f take s := by
  by_cases known : 1 ≤ f.code.toNat ∧ f.code.toNat ≤ 16
  · obtain ⟨act, acts⟩ := completeFrame_command known.1 known.2
    exact ⟨_, acts⟩
  · have outside : f.code = 0 ∨ 16 < f.code.toNat := by bv_omega
    exact ⟨_, completeFrame_unknown outside⟩

/-- A payload of up to 120 bytes is no bad length (R174). -/
theorem within_maxPayload {n : Nat} (short : n ≤ 120) : ¬ Config.maxPayload < n := Nat.not_lt.mpr short

/-- A complete frame takes the place of what the receiver and its buffer hold (R174). -/
theorem completeFrame_putReceiver {f : Frame} (short : f.payload.length ≤ 120) (r : Receiver) (b : ReceiveBuffer) (s : State) :
    completeFrame f (putReceiver r b s) = completeFrame f s := by
  obtain ⟨take, takes⟩ := completeFrame_takes f
  rw [takes, takes, takeFrame, takeFrame, if_neg (within_maxPayload short), if_neg (within_maxPayload short)]
  rfl

/-- A complete frame while a response is outstanding is counted, and nothing is taken (R175). -/
theorem completeFrame_busy {f : Frame} {s : State} (short : f.payload.length ≤ 120) (busy : s.host.outstanding ≠ none) :
    completeFrame f s = hostFrameCounted (frameReceived f s) := by
  obtain ⟨take, takes⟩ := completeFrame_takes f
  have outstanding : (frameReceived f s).host.outstanding.isSome = true := Option.isSome_iff_ne_none.mpr busy
  rw [takes, takeFrame, if_neg (within_maxPayload short), if_pos outstanding]

/-- A complete frame wakes a DORMANT pedestal that is SILENT, and is then taken awake (R175, R194). -/
theorem completeFrame_wakes {f : Frame} {s : State} (short : f.payload.length ≤ 120) (dormant : s.supply.dormancy = .DORMANT)
    (silent : s.line.state = .SILENT) (free : s.host.outstanding = none) :
    completeFrame f s = completeFrame f (woken .BRISK s) := by
  obtain ⟨take, takes⟩ := completeFrame_takes f
  have notClashed : (frameReceived f s).line.state ≠ .CLASHED := fun clashed => by
    rw [frameReceived, onHost_line, silent] at clashed
    exact absurd clashed (by decide)
  have wakes : wake .BRISK (frameReceived f s) = frameReceived f (woken .BRISK s) := wake_eq .BRISK _ notClashed
  have noResponse : ¬ (frameReceived f s).host.outstanding.isSome = true := by simp [frameReceived, free]
  rw [takes, takes, takeFrame_taken f take (woken .BRISK s) short rfl free, takeFrame, if_neg (within_maxPayload short),
    if_neg noResponse, if_pos (show (frameReceived f s).supply.dormancy = .DORMANT from dormant), wakes]

/-! ## Frames that are refused (R176, R201) -/

/-- A complete frame whose code names no command is answered so, and changes nothing else. -/
theorem unknownCode_taken {code : Byte} {payload : List Byte} {s : State} (taken : takesCommand s)
    (short : payload.length ≤ 120) :
    unknownCode code payload s =
      respondedTo { code := code, payload := payload } { frame := { code := 0xFE, payload := [1, code] }, reset := none } s := by
  obtain ⟨-, awake, free⟩ := taken
  exact takeFrame_taken _ _ s short awake free

/-- A payload of another length than the command's own is refused, and changes nothing else. -/
theorem commandFrame_badLength {code : Byte} {length : Nat} {payload : List Byte} {act : State → Taken} {s : State}
    (taken : takesCommand s) (short : payload.length ≤ 120) (other : payload.length ≠ length) :
    commandFrame code length payload act s =
      respondedTo { code := code, payload := payload } { frame := { code := code + 0xC0, payload := [2] }, reset := none } s := by
  obtain ⟨-, awake, free⟩ := taken
  rw [commandFrame, takeFrame_taken _ _ s short awake free, takeCommand, if_pos other]
  rfl

theorem actReset_unknown {scope : Byte} (full : scope ≠ 1) (engine : scope ≠ 2) (counts : scope ≠ 3) (s : State) :
    actReset scope s = refuse .UNKNOWN s := by
  rw [actReset, if_neg full, if_neg engine, if_neg counts]

theorem actHush_unknown {arg : Byte} (left : arg ≠ 1) (right : arg ≠ 2) (both : arg ≠ 3) (s : State) :
    actHush arg s = refuse .UNKNOWN s := by
  simp only [actHush, if_neg left, if_neg right, if_neg both]

theorem actStream_unknown {arg : Byte} (off : arg ≠ 0) (on : arg ≠ 1) (s : State) : actStream arg s = refuse .UNKNOWN s := by
  rw [actStream, if_neg off, if_neg on]

/-- An id outside 1 to 15 names no parameter (R178, R201). -/
theorem paramValue_unknown (p : Params) {id : Byte} (outside : id = 0 ∨ 15 < id.toNat) : paramValue p id.toNat = none := by
  unfold paramValue
  split
  case h_16 => rfl
  all_goals
    rename_i place
    rcases outside with zero | beyond
    · simp [zero] at place
    · omega

theorem actGet_unknown {id : Byte} (outside : id = 0 ∨ 15 < id.toNat) (s : State) : actGet id s = refuse .UNKNOWN s := by
  rw [actGet, paramData, paramValue_unknown _ outside]
  rfl

theorem actSet_unknown {id : Byte} (outside : id = 0 ∨ 15 < id.toNat) (value : Nat) (s : State) :
    actSet id value s = refuse .UNKNOWN s :=
  if_pos (by rw [paramValue_unknown _ outside]; rfl)

/-- A command of its own length that refuses its argument makes the response alone. -/
theorem commandFrame_unknownArgument {code : Byte} {length : Nat} {payload : List Byte} {act : State → Taken} {s : State}
    (taken : takesCommand s) (own : payload.length = length) (short : length ≤ 120) (refuses : ∀ u, act u = refuse .UNKNOWN u) :
    commandFrame code length payload act s =
      respondedTo { code := code, payload := payload } { frame := { code := code + 0xC0, payload := [1] }, reset := none } s :=
  commandFrame_reads taken own short (refuses _)

/-- Settles O55: each row stands for its complete frame, whose command refuses code, length or argument. -/
theorem commandsRefused : Obligations.CommandsRefused := by
  unfold Obligations.CommandsRefused
  intro s taken refused
  refine ⟨fun code payload outside short => ?_, fun c f row short first last other => ?_, fun b => ?_⟩
  · exact exec_taken taken.1 ((completeFrame_unknown outside s).trans (unknownCode_taken taken short))
  · obtain ⟨act, acts⟩ := completeFrame_command first last
    exact exec_taken taken.1
      ((congrFun (effect_hostFrame row) s).trans ((acts s).trans (commandFrame_badLength taken short other)))
  · refine ⟨fun one two three => ⟨?_, ?_⟩, fun zero one => ?_, fun high low outside => ⟨?_, ?_⟩⟩
    · exact exec_taken taken.1
        (commandFrame_unknownArgument (payload := [b]) (length := 1) taken rfl (by decide) (actReset_unknown one two three))
    · exact exec_taken taken.1 (commandFrame_unknownArgument taken rfl (by decide) (actHush_unknown one two three))
    · exact exec_taken taken.1 (commandFrame_unknownArgument taken rfl (by decide) (actStream_unknown zero one))
    · exact exec_taken taken.1 (commandFrame_unknownArgument taken rfl (by decide) (actGet_unknown outside))
    · exact exec_taken taken.1 (commandFrame_unknownArgument taken rfl (by decide) (actSet_unknown outside _))

/-! ## The wake by a frame (R175, R194) -/

/-- Settles O54: the frame that a row stands for is taken in the state woken. -/
theorem frameWakesDormant : Obligations.FrameWakesDormant := by
  unfold Obligations.FrameWakesDormant
  intro c f s row short running dormant silent free
  have stillRuns : heldInReset (woken .BRISK s) = false := running
  rw [exec_running c running, exec_running c stillRuns, effect_hostFrame row, completeFrame_wakes short dormant silent free]
  exact ⟨rfl, rfl⟩

/-! ## The receiver, byte by byte (R173, R174) -/

/-- Bytes of the link with good stop bits. -/
def cleanBytes (bytes : List Byte) : List LinkByte := bytes.map fun b => { value := b, stopDominant := false }

theorem receiveBytes_append (first second : List Byte) (s : State) :
    receiveBytes (cleanBytes (first ++ second)) s = receiveBytes (cleanBytes second) (receiveBytes (cleanBytes first) s) := by
  rw [cleanBytes, List.map_append]
  exact List.foldl_append

/-- The receiver behind the code byte of a frame of `length` payload bytes, the payload received as far as `payload` (R174). -/
def receiving (length : Nat) (code : Byte) (payload : List Byte) (s : State) : State :=
  putReceiver (if payload.length < length then .PAYLOAD else .CHECK) { length := length, code := code, payload := payload } s

/-- A byte of the payload is appended while payload is due. -/
theorem receiveByte_payload {length : Nat} {payload : List Byte} (due : payload.length < length) (code b : Byte) (s : State) :
    receiveByte { value := b, stopDominant := false } (receiving length code payload s) =
      receiving length code (payload ++ [b]) s := by
  rw [receiving, if_pos due]
  rfl

theorem receiveBytes_payload {length : Nat} (code : Byte) (rest : List Byte) {received : List Byte}
    (fits : received.length + rest.length ≤ length) (s : State) :
    receiveBytes (cleanBytes rest) (receiving length code received s) = receiving length code (received ++ rest) s := by
  induction rest generalizing received with
  | nil => rw [List.append_nil]; rfl
  | cons b rest ih =>
    rw [List.length_cons] at fits
    calc receiveBytes (cleanBytes (b :: rest)) (receiving length code received s)
        = receiveBytes (cleanBytes rest)
            (receiveByte { value := b, stopDominant := false } (receiving length code received s)) := rfl
      _ = receiveBytes (cleanBytes rest) (receiving length code (received ++ [b]) s) := by
          rw [receiveByte_payload (by omega)]
      _ = receiving length code (received ++ [b] ++ rest) s := ih (by simp; omega)
      _ = receiving length code (received ++ b :: rest) s := by rw [List.append_assoc, List.singleton_append]

theorem receiveByte_sync {s : State} (hunts : s.host.receiver = .HUNT) :
    receiveByte { value := 0xC3, stopDominant := false } s = putReceiver .LENGTH { length := 0, code := 0, payload := [] } s := by
  rw [receiveByte, hunts]
  rfl

theorem receiveByte_length {n : Nat} (short : n ≤ 120) (b : ReceiveBuffer) (s : State) :
    receiveByte { value := BitVec.ofNat 8 n, stopDominant := false } (putReceiver .LENGTH b s) =
      putReceiver .CODE { b with length := n } s := by
  have read : (BitVec.ofNat 8 n).toNat = n := by rw [BitVec.toNat_ofNat]; omega
  have fits : ¬ (false || decide (Config.maxPayload < n)) = true := by simpa using within_maxPayload short
  simp only [receiveByte, read, putReceiver, onHost_host, if_neg fits]
  rfl

theorem receiveByte_code (length : Nat) (old code : Byte) (s : State) :
    receiveByte { value := code, stopDominant := false } (putReceiver .CODE { length := length, code := old, payload := [] } s) =
      receiving length code [] s := by
  cases length <;> rfl

/-- The sync byte, length, code and payload of a frame leave it in the buffer, and its CRC-8 due (R173, R174). -/
theorem receiveBytes_uptoCheck {f : Frame} {s : State} (short : f.payload.length ≤ 120) (hunts : s.host.receiver = .HUNT) :
    receiveBytes (cleanBytes (0xC3 :: BitVec.ofNat 8 f.payload.length :: f.code :: f.payload)) s =
      putReceiver .CHECK { length := f.payload.length, code := f.code, payload := f.payload } s := by
  have header : receiveBytes (cleanBytes [0xC3, BitVec.ofNat 8 f.payload.length, f.code]) s =
      receiving f.payload.length f.code [] s := by
    simp only [cleanBytes, List.map_cons, List.map_nil, receiveBytes, List.foldl_cons, List.foldl_nil, receiveByte_sync hunts,
      receiveByte_length short, receiveByte_code]
  calc receiveBytes (cleanBytes (0xC3 :: BitVec.ofNat 8 f.payload.length :: f.code :: f.payload)) s
      = receiveBytes (cleanBytes f.payload) (receiveBytes (cleanBytes [0xC3, BitVec.ofNat 8 f.payload.length, f.code]) s) := rfl
    _ = receiving f.payload.length f.code f.payload s := by
        rw [header, receiveBytes_payload f.code f.payload (by simp), List.nil_append]
    _ = putReceiver .CHECK { length := f.payload.length, code := f.code, payload := f.payload } s := by
        rw [receiving, if_neg (Nat.lt_irrefl _)]

/-- The CRC-8 byte of a frame completes it; any other byte in its place discards it (R174). -/
theorem receiveByte_check (f : Frame) (crc : Byte) (s : State) :
    receiveByte { value := crc, stopDominant := false }
        (putReceiver .CHECK { length := f.payload.length, code := f.code, payload := f.payload } s) =
      if crc = crc8 (BitVec.ofNat 8 f.payload.length :: f.code :: f.payload) then
        completeFrame f (putReceiver .CHECK { length := f.payload.length, code := f.code, payload := f.payload } s)
      else discardFrame (putReceiver .CHECK { length := f.payload.length, code := f.code, payload := f.payload } s) := by
  by_cases good : crc = crc8 (BitVec.ofNat 8 f.payload.length :: f.code :: f.payload) <;>
    simp [receiveByte, putReceiver, good]

/-- A frame up to its payload, then one byte in the place of its CRC-8. -/
theorem receiveBytes_frame {f : Frame} {s : State} (short : f.payload.length ≤ 120) (hunts : s.host.receiver = .HUNT)
    (crc : Byte) :
    receiveBytes (cleanBytes (0xC3 :: BitVec.ofNat 8 f.payload.length :: f.code :: f.payload ++ [crc])) s =
      if crc = crc8 (BitVec.ofNat 8 f.payload.length :: f.code :: f.payload) then completeFrame f s
      else discardFrame (putReceiver .CHECK { length := f.payload.length, code := f.code, payload := f.payload } s) := by
  rw [receiveBytes_append, receiveBytes_uptoCheck short hunts]
  exact (receiveByte_check f crc s).trans (by rw [completeFrame_putReceiver short])

/-- Settles O52: the bytes complete the frame, and the row stands for it. -/
theorem frameBytesAreCommands : Obligations.FrameBytesAreCommands := by
  unfold Obligations.FrameBytesAreCommands
  intro c f s row short hunts
  have notPowerOn : isPowerOn c = false := by cases c <;> simp [hostFrameOf, isPowerOn] at row ⊢
  have spelled : receiveBytes (cleanBytes (frameBytes f)) s = completeFrame f s :=
    (receiveBytes_frame short hunts _).trans (if_pos rfl)
  have effects : effect (.hostFrameBad (cleanBytes (frameBytes f))) s = effect c s := spelled.trans (by rw [effect_hostFrame row])
  rw [← cleanBytes, exec_eq, exec_eq, notPowerOn, effects]
  rfl

/-! ## Frames that are discarded (R174, R175) -/

/-- A dominant stop bit discards a frame that has passed its sync byte. -/
theorem receiveByte_stopDominant {s : State} (past : s.host.receiver ≠ .HUNT) (b : Byte) :
    receiveByte { value := b, stopDominant := true } s = discardFrame s := by
  unfold receiveByte
  cases receiver : s.host.receiver with
  | HUNT => exact absurd receiver past
  | LENGTH | CODE | PAYLOAD | CHECK => rfl

/-- In HUNT a faulty byte and any byte but 0xC3 are passed over. -/
theorem receiveByte_hunt {s : State} {b : LinkByte} (hunts : s.host.receiver = .HUNT)
    (noSync : b.stopDominant = true ∨ b.value ≠ 0xC3) :
    receiveByte b s = s := by
  have passed : (b.stopDominant || decide (b.value ≠ 0xC3)) = true := by simpa using noSync
  simp only [receiveByte, hunts, if_pos passed]

/-- A length over 120 is a bad one. -/
theorem receiveByte_badLength {s : State} {b : Byte} (due : s.host.receiver = .LENGTH) (long : 120 < b.toNat) :
    receiveByte { value := b, stopDominant := false } s = discardFrame s := by
  have bad : (false || decide (Config.maxPayload < b.toNat)) = true := decide_eq_true long
  simp only [receiveByte, due, if_pos bad]

theorem byteGap_hunt {s : State} (hunts : s.host.receiver = .HUNT) : byteGap s = s := if_pos hunts

theorem byteGap_past {s : State} (past : s.host.receiver ≠ .HUNT) : byteGap s = discardFrame s := if_neg past

/-- Settles O53: each byte and each gap by its own rule above. -/
theorem badFramesDiscarded : Obligations.BadFramesDiscarded := by
  unfold Obligations.BadFramesDiscarded
  intro s running errors discarded held clean began
  refine ⟨fun c f row short busy => ?_, fun f crc short bad hunts => ?_, fun b due long => ?_, fun b past => ?_,
    fun b hunts => ⟨?_, fun noSync => ?_⟩, fun b => ⟨fun past noSync => ?_, fun past sync => ?_, fun hunts sync => ?_⟩⟩
  · exact exec_taken running ((congrFun (effect_hostFrame row) s).trans (completeFrame_busy short busy))
  · exact exec_taken running ((receiveBytes_frame short hunts crc).trans (if_neg bad))
  · exact exec_taken running (receiveByte_badLength due long)
  · exact exec_taken running (receiveByte_stopDominant past b)
  · exact exec_taken running (receiveByte_hunt hunts (.inl rfl))
  · exact exec_taken running (receiveByte_hunt hunts (.inr noSync))
  · exact exec_taken running ((congrArg _ (byteGap_past past)).trans (receiveByte_hunt rfl (.inr noSync)))
  · subst sync
    exact exec_taken running ((congrArg _ (byteGap_past past)).trans (receiveByte_sync rfl))
  · subst sync
    exact exec_taken running ((congrArg _ (byteGap_hunt hunts)).trans (receiveByte_sync hunts))

end Sys2Proof.Machine
end

section
/-! PROOFS. The end of a response and of a REPORT frame (O51). -/

namespace Sys2Proof.Machine

/-! ## Delivery behind a transmission (R184) -/

/-- The host port with no transmission under way: a REPORT frame begins if the stream is on and a record waits (R184). -/
def deliveryTested (h : HostPort) : HostPort :=
  { h with transmitter := if h.streaming = true ∧ h.ring ≠ [] then .SENDING_REPORT else .IDLE }

theorem startDelivery_idle {s : State} (idle : s.host.transmitter = .IDLE) (free : s.host.outstanding = none) :
    startDelivery s = { s with host := deliveryTested s.host } := by
  have due : (s.host.streaming && s.host.transmitter = .IDLE && s.host.outstanding.isNone && !s.host.ring.isEmpty) = true ↔
      s.host.streaming = true ∧ s.host.ring ≠ [] := by
    simp [idle, free]
  unfold startDelivery deliveryTested
  by_cases delivers : s.host.streaming = true ∧ s.host.ring ≠ []
  · rw [if_pos (due.mpr delivers), if_pos delivers]
    rfl
  · rw [if_neg (due.not.mpr delivers), if_neg delivers, ← idle]

/-- The part when its response has been sent, before the reset and the delivery (R175). -/
def responseGone (s : State) : State := s.onHost fun h => { h with outstanding := none, transmitter := .IDLE }

theorem responseEnd_sending {s : State} {r : Response} (pins : StrapPins) (sends : s.host.transmitter = .SENDING_RESPONSE)
    (waits : s.host.outstanding = some r) :
    responseEnd pins s = startDelivery (actOnReset r.reset pins (responseGone s)) := by
  simp only [responseEnd, sends, waits]
  rfl

theorem reportEnd_free {s : State} (sends : s.host.transmitter = .SENDING_REPORT) (free : s.host.outstanding = none) :
    reportEnd s = { s with host := deliveryTested { s.host with ring := s.host.ring.tail } } := by
  have noResponse : ¬ s.host.outstanding.isSome = true := by simp [free]
  have delivers := startDelivery_idle (s := s.onHost fun h => { h with ring := h.ring.tail, transmitter := .IDLE }) rfl free
  exact (if_pos sends).trans ((if_neg noResponse).trans delivers)

theorem reportEnd_waiting {s : State} (sends : s.host.transmitter = .SENDING_REPORT) (waits : s.host.outstanding ≠ none) :
    reportEnd s = { s with host := { s.host with ring := s.host.ring.tail, transmitter := .SENDING_RESPONSE } } :=
  (if_pos sends).trans (if_pos (Option.isSome_iff_ne_none.mpr waits))

/-! ## RESET ENGINE (R188) -/

/-- What RESET ENGINE sets in each block, by the reset tables of the chapters (R18, R40, R105, R123, R137, R154, R163, R172). -/
theorem engineReset_eq (s : State) :
    engineReset s =
      { s with
        field := { coilH := .OK, coilS := .OK, qx4 := 8, window := none }
        track := { table := [], cache := [], leftBroken := none, rightBroken := none }
        line := { s.line with peerLeft := noPeer, peerRight := noPeer, fieldClass := .FRESH, noticeClass := .FRESH }
        access := { s.access with grant := false, cadence := .BRISK, quietRounds := 0, patternPosition := 0 }
        notices := { outbox := [], inFlight := .NONE }
        lanes := { left := .ARMED, right := .ARMED, clear := { pressed := true, latest := none } }
        sounder := silenced s.sounder
        beams :=
          { s.beams with
            hall := { confirmed := .CLEAR, latest := none }, street := { confirmed := .CLEAR, latest := none }
            footfall := .CLEAR }
        supply := { s.supply with dormantRounds := 0, quietMinutes := 0, pendingEntry := false } } := by
  simp only [engineReset, clearPeers_eq]
  simp [armLanes, abandonWindow, soundStop, dormantTimerZero, freshClasses, lanesAfterPeersLost, afterPeerLost, laneState, isHushed,
    silenced, State.onField, State.onTrack, State.onNotices, State.onLanes, State.onSounder, State.onLine, State.onAccess,
    State.onBeams, State.onSupply]

/-! ## The statement -/

/-- Settles O51: each reset leaves the transmitter IDLE and no response outstanding, and the delivery is then tested. -/
theorem transmissionEnds : Obligations.TransmissionEnds := by
  unfold Obligations.TransmissionEnds
  intro pins s running idle
  refine ⟨fun r sends waits => ?_, fun sends free => ?_, fun r sends waits => ?_⟩
  · have ends {t : State} (resets : startDelivery (actOnReset r.reset pins (responseGone s)) = t) :
        exec (.responseSent pins) s = .next t := exec_taken running ((responseEnd_sending pins sends waits).trans resets)
    refine ⟨fun noReset => ends ?_, fun full => ends ?_, fun counts => ends ?_, fun engine => ends ?_⟩
    · rw [noReset]
      exact startDelivery_idle rfl rfl
    · rw [full]
      exact startDelivery_idle rfl rfl
    · rw [counts]
      exact startDelivery_idle rfl rfl
    · rw [engine, actOnReset, engineReset_eq]
      exact startDelivery_idle rfl rfl
  · exact exec_taken running (reportEnd_free sends free)
  · exact exec_taken running (reportEnd_waiting sends (by simp [waits]))

end Sys2Proof.Machine
end

section
/-! PROOFS. Where the fields of a station slot stand, and what its outcome reads (O24). -/

namespace Sys2Proof.Machine

/-! ## Lane codes and three-bit fields (R196) -/

/-- A lane code is read back from its number, and no other number spells it. -/
theorem laneCodeOf_eq_some {n : BitVec 3} {c : LaneCode} : laneCodeOf n = some c ↔ n = laneCodeBits c := by
  revert n
  cases c <;> decide

/-- The numbers 6 and 7 are no lane code. -/
theorem laneCodeOf_slotError {n : BitVec 3} (error : 6 ≤ n.toNat) : laneCodeOf n = none := by
  revert n
  decide

/-- A field of three bits tells each of them. -/
theorem fieldOfBits_three_inj {x y z x' y' z' : Bool} (same : fieldOfBits 3 [x, y, z] = fieldOfBits 3 [x', y', z']) :
    x = x' ∧ y = y' ∧ z = z' := by
  revert x y z x' y' z'
  decide

/-! ## Levels that carry a slot word (R93, R196) -/

/-- The levels `b` are those of a present slot that carries the word `w`: each field at its bit times, with spacer and guard
recessive. -/
structure CarriesWord (b : BitVec 16) (w : SlotWord) : Prop where
  presence : b.getLsbD 0 = false
  left : fieldOfBits 3 [b.getLsbD 1, b.getLsbD 2, b.getLsbD 3] = laneCodeBits w.left
  right : fieldOfBits 3 [b.getLsbD 4, b.getLsbD 5, b.getLsbD 6] = laneCodeBits w.right
  spacer : b.getLsbD 7 = true
  fieldClass : b.getLsbD 8 = true ↔ w.fieldClass = .DEFERRED
  hall : b.getLsbD 9 = true ↔ w.hall = .BROKEN
  street : b.getLsbD 10 = true ↔ w.street = .BROKEN
  calm : b.getLsbD 11 = true ↔ w.calm = .CALM
  guard : b.getLsbD 12 = true ∧ b.getLsbD 13 = true ∧ b.getLsbD 14 = true ∧ b.getLsbD 15 = true

/-- The sent slot of a word carries it. -/
theorem slotBits_carries (w : SlotWord) : CarriesWord (slotBits w) w := by
  have level {i : Nat} (within : i < 16) := slotBits_getLsbD w within
  have three (x : BitVec 3) : fieldOfBits 3 [x.getMsbD 0, x.getMsbD 1, x.getMsbD 2] = x := fieldOfBits_bitsOf x
  constructor <;> simp only [level, Nat.reduceLT]
  case left | right => exact three _
  case guard => exact ⟨rfl, rfl, rfl, rfl⟩
  case presence | spacer => rfl
  case fieldClass | hall | street | calm => exact decide_eq_true_iff

/-- The levels that carry a word are determined by it, bit time by bit time. -/
theorem CarriesWord.unique {a b : BitVec 16} {w : SlotWord} (ha : CarriesWord a w) (hb : CarriesWord b w) : a = b := by
  obtain ⟨left1, left2, left3⟩ := fieldOfBits_three_inj (ha.left.trans hb.left.symm)
  obtain ⟨right1, right2, right3⟩ := fieldOfBits_three_inj (ha.right.trans hb.right.symm)
  obtain ⟨a12, a13, a14, a15⟩ := ha.guard
  obtain ⟨b12, b13, b14, b15⟩ := hb.guard
  have flag {x y : Bool} {p : Prop} (hx : x = true ↔ p) (hy : y = true ↔ p) : x = y := Bool.eq_iff_iff.mpr (hx.trans hy.symm)
  have same : ∀ i : Fin 16, a.getLsbD i.val = b.getLsbD i.val := by
    simp only [Fin.forall_fin_succ]
    exact ⟨ha.presence.trans hb.presence.symm, left1, left2, left3, right1, right2, right3, ha.spacer.trans hb.spacer.symm,
      flag ha.fieldClass hb.fieldClass, flag ha.hall hb.hall, flag ha.street hb.street, flag ha.calm hb.calm,
      a12.trans b12.symm, a13.trans b13.symm, a14.trans b14.symm, a15.trans b15.symm, fun i => i.elim0⟩
  exact BitVec.eq_of_getLsbD_eq fun i within => same ⟨i, within⟩

/-! ## The outcome of a slot (R93) -/

/-- A recessive presence bit reads ABSENT, whatever follows it. -/
theorem slotOutcome_absent {b : BitVec 16} (recessive : b.getLsbD 0 = true) : slotOutcome b = .ABSENT := if_pos recessive

/-- A present slot with a dominant spacer or guard is not received. -/
theorem slotOutcome_unguarded {b : BitVec 16} (present : b.getLsbD 0 = false)
    (dominant : b.getLsbD 7 = false ∨ b.getLsbD 12 = false ∨ b.getLsbD 13 = false ∨ b.getLsbD 14 = false ∨
      b.getLsbD 15 = false) :
    slotOutcome b = .NOT_RECEIVED := by
  have unguarded : (b.getLsbD 7 && b.getLsbD 12 && b.getLsbD 13 && b.getLsbD 14 && b.getLsbD 15) = false := by
    simpa only [Bool.and_eq_false_iff, or_assoc] using dominant
  simp only [slotOutcome, present, unguarded, Bool.false_eq_true, if_false]

/-- A slot is read as present with a word exactly when its levels carry that word. -/
theorem slotOutcome_present {b : BitVec 16} {w : SlotWord} : slotOutcome b = .PRESENT w ↔ CarriesWord b w := by
  constructor
  · intro read
    unfold slotOutcome at read
    simp only at read
    split at read
    · cases read
    · rename_i present
      split at read
      · rename_i guarded
        split at read
        · rename_i left right
          obtain ⟨⟨⟨⟨spacer, g12⟩, g13⟩, g14⟩, g15⟩ := by simpa only [Bool.and_eq_true] using guarded
          obtain rfl := SlotOutcome.PRESENT.inj read
          exact
            { presence := Bool.eq_false_iff.mpr present, spacer := spacer, guard := ⟨g12, g13, g14, g15⟩
              left := laneCodeOf_eq_some.mp left, right := laneCodeOf_eq_some.mp right
              fieldClass := by simp, hall := by simp, street := by simp, calm := by simp }
        · cases read
      · cases read
  · intro h
    obtain ⟨g12, g13, g14, g15⟩ := h.guard
    have sendClass : ∀ c : SendClass, (if c = .DEFERRED then .DEFERRED else .FRESH) = c := by rintro (_ | _) <;> rfl
    have beam : ∀ b : Beam, (if b = .BROKEN then .BROKEN else .CLEAR) = b := by rintro (_ | _) <;> rfl
    have cadence : ∀ c : Cadence, (if c = .CALM then .CALM else .BRISK) = c := by rintro (_ | _) <;> rfl
    simp only [slotOutcome, h.presence, h.spacer, g12, g13, g14, g15, laneCodeOf_eq_some.mpr h.left,
      laneCodeOf_eq_some.mpr h.right, h.fieldClass, h.hall, h.street, h.calm, sendClass, beam, cadence, Bool.false_eq_true,
      if_false, Bool.and_self, if_true]

/-- A present slot with a lane code of 6 or 7 is a slot error, and not received (R93, R196). -/
theorem slotOutcome_slotError {b : BitVec 16} (present : b.getLsbD 0 = false)
    (error : 6 ≤ (fieldOfBits 3 [b.getLsbD 1, b.getLsbD 2, b.getLsbD 3]).toNat ∨
      6 ≤ (fieldOfBits 3 [b.getLsbD 4, b.getLsbD 5, b.getLsbD 6]).toNat) :
    slotOutcome b = .NOT_RECEIVED := by
  simp only [slotOutcome, present, Bool.false_eq_true, if_false]
  split
  · rcases error with left | right
    · rw [laneCodeOf_slotError left]
    · rw [laneCodeOf_slotError right]
      cases laneCodeOf (fieldOfBits 3 [b.getLsbD 1, b.getLsbD 2, b.getLsbD 3]) <;> rfl
  · rfl

/-- Settles O24: the sent slot carries its word, and a slot is read as present with a word exactly when it carries it. -/
theorem slotLayout : Obligations.SlotLayout := by
  unfold Obligations.SlotLayout
  refine ⟨⟨fun w => ?_, ?_, fun b => slotOutcome_slotError⟩,
    fun b => ⟨slotOutcome_absent, slotOutcome_unguarded, fun w => ?_⟩⟩
  · intro b
    have sent : CarriesWord b w := slotBits_carries w
    obtain ⟨g12, g13, g14, g15⟩ := sent.guard
    exact ⟨sent.presence, sent.left, sent.right, sent.spacer, sent.fieldClass, sent.hall, sent.street, sent.calm,
      g12, g13, g14, g15, slotOutcome_present.mpr sent⟩
  · exact ⟨rfl, rfl, rfl, rfl, rfl, rfl⟩
  · rw [slotOutcome_present]
    exact ⟨fun carries => carries.unique (slotBits_carries w), fun same => same ▸ slotBits_carries w⟩

end Sys2Proof.Machine
end

section
/-! PROOFS. What holds of every command and step, the hold in reset among it (O1, O2, O3), and the state right after reset
(O10). -/

namespace Sys2Proof.Machine

/-! ## While held in reset (R187) -/

theorem isPowerOn_eq_false {c : Instr} (notHold : ∀ source, c ≠ .powerOnHold source)
    (notRelease : ∀ last pins, c ≠ .powerOn last pins) : isPowerOn c = false := by
  cases c with
  | powerOnHold source => exact absurd rfl (notHold source)
  | powerOn last pins => exact absurd rfl (notRelease last pins)
  | _ => rfl

/-- Settles O3: a held part takes POWER-ON alone (`exec_eq`). -/
theorem heldTakesNothing : Obligations.HeldTakesNothing := by
  intro c s held notHold notRelease
  rw [exec_eq, held, isPowerOn_eq_false notHold notRelease]
  rfl

/-! ## The queue of waiting commands (log entry 3) -/

/-- Settles O1: the two branches of a step. -/
theorem stepTakesFront : Obligations.StepTakesFront := by
  refine ⟨fun c rest s => rfl, fun s empty => ?_⟩
  unfold step
  rw [empty]

/-- The commands of the host leave the queue. -/
theorem pending_keptByHost (queue : List Instr) : KeptByHost fun s => s.pending = queue where
  keepsPort _ _ same _ h := by rw [same]; exact h
  keepsWake _ _ h := by simpa using h
  keepsBeams _ _ same h := by rw [same]; exact h
  keepsParam _ _ _ h := h
  keepsUnpend _ h := h
  keepsExcuses _ _ h := h
  keepsNotice _ _ _ h := by simpa using h
  keepsHush _ _ h := by simpa using h
  keepsSound _ _ same h := by rw [same]; exact h
  keepsRest _ h := by simpa using h

/-- No command's effect touches the queue: the rows of the host by `KeptByHost`, every other by the frames of the operations that
it is made of. -/
theorem effect_pending (c : Instr) (s : State) : (effect c s).pending = s.pending := by
  have host := pending_keptByHost s.pending
  cases frame : hostFrameOf c with
  | some f => rw [effect_hostFrame frame]; exact host.completeFrame_keeps f rfl
  | none =>
    cases c <;> simp only [hostFrameOf, reduceCtorEq] at frame
    case hostFrameBad bytes => exact host.receiveBytes_keeps bytes rfl
    case hostByteGapTimeout before late =>
      exact host.receiveByte_keeps late (host.byteGap_keeps (host.receiveBytes_keeps before rfl))
    case responseSent pins => exact host.responseEnd_keeps pins (fun _ h => h) (fun _ h => by simpa using h) rfl
    case reportFrameSent => exact host.reportEnd_keeps rfl
    case markEnd | roundTimerExpiry | followingTimeout | lineStuck | lineStuckTimingFree =>
      simp only [effect, endMark, expireTimer, timeOutFollowing, stickLine, freeTiming, startIfDue]
      (repeat' split) <;> simp [runEnds, endListen]
    case listenTimeout | startMarkSend | runTooShort | loneRecovery | timingFollowingRestored =>
      simp only [effect, reachRoundEnd, sendAfterRun, leaveLone, followAgain]
      split <;> simp [endListen, lineQuiet]
    case ownSlotReadback | requestFieldEnd | noticeSlotStart | noticeSlotEnd =>
      simp only [effect, readBackOwn, endRequests, startNotice, endNotice]
      (repeat' split) <;> simp [putClashMark, putTimer]
    case minuteBoundary | soundLimitExpiry | quietMinute =>
      simp only [effect]
      split <;> simp
    case flashToggle | clearPress | clearSample =>
      simp only [effect, toggleFlash, sampleClear]
      (repeat' split) <;> simp
    case beamChange | beamSample =>
      simp only [effect, sampleBeams, beamBreak]
      (repeat' split) <;> simp
    case sounderEntryEnd | sounderEndMarkerRecheck | sounderSample =>
      simp only [effect, giveSample, entryEnd, recheck]
      (repeat' split) <;> rfl
    case powerOnHold => simp [effect, holdInReset]
    case powerOn | calmEntry | trackExpiry | cacheAgeing | staleNotice | slotReceived | replyWindowEnd | followCallEnd |
        halfSweepTimeLimit =>
      simp [effect]

/-- Settles O2: a command that is not taken changes nothing, and one that is leaves the queue (`effect_pending`). -/
theorem everyCommandGoesOn : Obligations.EveryCommandGoesOn := by
  refine ⟨fun c s => ⟨_, exec_eq c s⟩, fun c s t executed => ?_⟩
  obtain ⟨-, rfl⟩ | rfl := exec_cases executed
  · rfl
  · exact effect_pending c s

/-! ## Right after reset -/

/-- Settles O10: the reset state is the one that a POWER-ON leaves, of which the invariants hold; no lane machine sounds in it. -/
theorem resetMeetsInvariants : Obligations.ResetMeetsInvariants := by
  have leaves : State.reset = powerOnState State.reset.supply.cause State.reset.supply.straps State.reset := rfl
  have capacity : withinCapacity State.reset := leaves ▸ powerOnState_capacity _ _ _
  have plays : playsWithLanes State.reset := leaves ▸ powerOnState_plays _ _ _
  have conduct : lineConduct State.reset := leaves ▸ powerOnState_conduct _ _ _
  have counters : countersInRange State.reset := leaves ▸ powerOnState_counters _ _ _
  have ⟨params, _⟩ := counters
  exact ⟨params, capacity, fun _ => plays, conduct, reset_figure, counters⟩

end Sys2Proof.Machine
end
